-- ==== Sys2Proof/Word.lean ====
section
/-! DEFINITION. The words the block moves and the widths of its fields (10_state.md R21 to R33, 20_memory.md R50). -/

namespace Sys2Proof

/-- A command word, and a word of the register read port: 16 bits (20_memory.md R50, R52). -/
abbrev Word := BitVec 16

/-- A linear brightness in [0, 1023]: 10 bits (00_scope.md R12, 30_encoding.md R72). -/
abbrev Lin := BitVec 10

/-- An address of the register read port: 3 bits, every one of them defined (20_memory.md R50, R53). -/
abbrev RegAddr := BitVec 3

end Sys2Proof
end

