-- ==== Sys2Proof/Syntax.lean ====
section
/-! DEFINITION. The commands of BCPD-CMD v1 (30_encoding.md R74), the two command errors (60_exceptions.md R200) and
the lines of its assembler (30_encoding.md R77, R78). -/

namespace Sys2Proof

/-- One constructor per row of spec/opcode_table.json. VAL is ten bits and every pattern is legal (30_encoding.md
R72); U is the update flag of format D (R73). -/
inductive Instr where
  /-- NOP (43_control.md R160). -/
  | nop
  /-- RAMP v (41_transition.md R121). -/
  | ramp (v : Lin)
  /-- SETD v, with U (42_direct.md R141). -/
  | setd (v : Lin) (u : Bool)
  /-- SETT v, with U (42_direct.md R142). -/
  | sett (v : Lin) (u : Bool)
  /-- CLRERR (43_control.md R161). -/
  | clrerr
deriving DecidableEq, Repr

/-- The command errors of 60_exceptions.md R200. They are recorded state, not faults of the model (R207). -/
inductive CmdError where
  /-- Code 1: OP is 0x5 to 0xF (R202). -/
  | illegalOp
  /-- Code 2: a must-be-zero bit of a legal OP is 1 (R203). -/
  | rsvBits
deriving DecidableEq, Repr

/-- One line of assembler text after reading, with its numbers as written: they may be out of range, and
`AsmLine.wellFormed` is the check (30_encoding.md R77). OFF and TRACK are the pseudo-instructions of R78. -/
inductive AsmLine where
  | nop
  | ramp (v : Nat)
  | setd (v : Nat) (u : Bool)
  | sett (v : Nat) (u : Bool)
  | clrerr
  | word (n : Nat)
  | off
  | track (v : Nat)
deriving DecidableEq, Repr

end Sys2Proof
end

