-- ==== Sys2Proof/WellFormed.lean ====
section
/-! DEFINITION. What a well-formed command word and a well-formed assembler line are. A term of `Instr` needs no check:
its operands' types admit exactly the values the encoding does (30_encoding.md R72, R73), so every `Instr` is
well-formed. -/

namespace Sys2Proof

/-- A row of the opcode map of 30_encoding.md R74: a word w selects it when `w &&& mask = pattern`. -/
structure OpRow where
  mnemonic : String
  pattern : Word
  mask : Word
deriving DecidableEq, Repr

namespace OpRow

/-- The row NOP. -/
def nop : OpRow := { mnemonic := "NOP", pattern := 0x0000, mask := 0xFFFF }
/-- The row RAMP. -/
def ramp : OpRow := { mnemonic := "RAMP", pattern := 0x1000, mask := 0xFC00 }
/-- The row SETD. -/
def setd : OpRow := { mnemonic := "SETD", pattern := 0x2000, mask := 0xF800 }
/-- The row SETT. -/
def sett : OpRow := { mnemonic := "SETT", pattern := 0x3000, mask := 0xF800 }
/-- The row CLRERR. -/
def clrerr : OpRow := { mnemonic := "CLRERR", pattern := 0x4000, mask := 0xFFFF }

/-- The whole opcode map (30_encoding.md R74). -/
def table : List OpRow := [nop, ramp, setd, sett, clrerr]

/-- Whether a word selects the row (30_encoding.md R74). -/
def selectedBy (r : OpRow) (w : Word) : Bool := w &&& r.mask == r.pattern

end OpRow

/-- The row an instruction belongs to. -/
def Instr.row : Instr → OpRow
  | .nop => .nop
  | .ramp _ => .ramp
  | .setd _ _ => .setd
  | .sett _ _ => .sett
  | .clrerr => .clrerr

/-- A command word is well-formed when some row of the opcode map matches it; every other word is malformed and
raises a command error (30_encoding.md R75, 60_exceptions.md R200). -/
def wordWellFormed (w : Word) : Bool := OpRow.table.any (·.selectedBy w)

/-- The assembler must reject v outside 0..1023 and n outside 0..0xFFFF (30_encoding.md R77). -/
def AsmLine.wellFormed : AsmLine → Bool
  | .nop => true
  | .ramp v => decide (v ≤ 1023)
  | .setd v _ => decide (v ≤ 1023)
  | .sett v _ => decide (v ≤ 1023)
  | .clrerr => true
  | .word n => decide (n ≤ 0xFFFF)
  | .off => true
  | .track v => decide (v ≤ 1023)

end Sys2Proof
end

