-- ==== Sys2Proof/Decode.lean ====
section
/-! DEFINITION. The decoder of 30_encoding.md R76, total on all 65536 words, and the encoder of R71 and R74. -/

namespace Sys2Proof

/-- OP = w[15:12] (30_encoding.md R71). -/
def opField (w : Word) : BitVec 4 := w.extractLsb' 12 4

/-- w[11:0], the ZERO field of format Z (30_encoding.md R71). -/
def zeroField (w : Word) : BitVec 12 := w.extractLsb' 0 12

/-- w[11:10], the RSV field of format R (30_encoding.md R71). -/
def rsvField (w : Word) : BitVec 2 := w.extractLsb' 10 2

/-- w[11], the RSV bit of format D (30_encoding.md R71). -/
def rsvBit (w : Word) : Bool := w.getLsbD 11

/-- U = w[10] in format D (30_encoding.md R73). -/
def uField (w : Word) : Bool := w.getLsbD 10

/-- VAL = w[9:0], not scaled, shifted or sign-extended (30_encoding.md R72). -/
def valField (w : Word) : Lin := w.extractLsb' 0 10

/-- The decoder: a malformed word is rejected by the name of its command error, the opcode check before the
reserved-bit check (30_encoding.md R76, 60_exceptions.md R204). -/
def decode (w : Word) : Except CmdError Instr :=
  if 0x5 ≤ (opField w).toNat then .error .illegalOp
  else if (opField w = 0x0 ∨ opField w = 0x4) ∧ zeroField w ≠ 0 then .error .rsvBits
  else if opField w = 0x1 ∧ rsvField w ≠ 0 then .error .rsvBits
  else if (opField w = 0x2 ∨ opField w = 0x3) ∧ rsvBit w then .error .rsvBits
  else if opField w = 0x0 then .ok .nop
  else if opField w = 0x1 then .ok (.ramp (valField w))
  else if opField w = 0x2 then .ok (.setd (valField w) (uField w))
  else if opField w = 0x3 then .ok (.sett (valField w) (uField w))
  else .ok .clrerr

/-- A word of format Z (30_encoding.md R71). -/
def encodeZ (op : BitVec 4) : Word := op ++ 0#12

/-- A word of format R (30_encoding.md R71). -/
def encodeR (op : BitVec 4) (v : Lin) : Word := op ++ 0#2 ++ v

/-- A word of format D (30_encoding.md R71). -/
def encodeD (op : BitVec 4) (u : Bool) (v : Lin) : Word := op ++ 0#1 ++ BitVec.ofBool u ++ v

/-- The word of an instruction (30_encoding.md R74). -/
def encode : Instr → Word
  | .nop => encodeZ 0x0
  | .ramp v => encodeR 0x1 v
  | .setd v u => encodeD 0x2 u v
  | .sett v u => encodeD 0x3 u v
  | .clrerr => encodeZ 0x4

/-- The instruction the decoder reads from the bits w of a table row of nbits bits. A command is one 16-bit word
(30_encoding.md R70), so bits above 15 do not exist (entry 10). -/
def decodeTableWord (nbits w : Nat) : Option Instr := (decode (BitVec.ofNat 16 (w % 2 ^ nbits))).toOption

end Sys2Proof
end

