-- ==== Sys2Proof/Config.lean ====
section
/-! DEFINITION. The implementation parameters of 00_scope.md R7 and R8, and the two values the spec leaves OPEN.
A build is carried by the state (assumption log, entry 1), so every theorem about all states is one about all builds. -/

namespace Sys2Proof

/-- PWM_BITS: the one build option, 8 or 10 (00_scope.md R3). -/
inductive PwmBits where
  | eight
  | ten
deriving DecidableEq, Repr

/-- N, the number of bits of the carrier (00_scope.md R7). -/
def PwmBits.width : PwmBits → Nat
  | .eight => 8
  | .ten => 10

/-- The parameters fixed when the block is built (00_scope.md R7). T_CHANGE carries its bound 65484 of R8 in its
type, so a combination outside R8 cannot be written down; `Machine.buildOf` is the check that refuses one. -/
structure Build where
  /-- PWM_BITS. -/
  pwmBits : PwmBits
  /-- T_CHANGE, in milliseconds, 0 ≤ T_CHANGE ≤ 65484. -/
  tChange : Fin 65485
  /-- PWM_INCLUSIVE: the compare rule of 44_pwm_output.md R183. -/
  pwmInclusive : Bool
deriving DecidableEq, Repr

/-- A value of the output domain [0, PWM_MAX]: DUTY, DUTY_ACT and CNT are PWM_BITS wide (10_state.md R24, R32, R33). -/
abbrev PwmVal (b : Build) := BitVec b.pwmBits.width

/-- The number of PwmClk events in one carrier period, 2^PWM_BITS (44_pwm_output.md R180). -/
def Build.period (b : Build) : Nat := 2 ^ b.pwmBits.width

/-- PWM_MAX = 2^PWM_BITS − 1 (00_scope.md R7). -/
def Build.pwmMax (b : Build) : Nat := b.period - 1

/-- The two rescale paths (00_scope.md R12, 40_corrector.md R100). -/
inductive OutPath where
  /-- The standard path: ramp samples and SETD. -/
  | std
  /-- The calibration-tracking path: SETT. -/
  | track
deriving DecidableEq, Repr

namespace Config

/-- HOLD_MS (00_scope.md R7). -/
def holdMs : Nat := 50
/-- K_STD (00_scope.md R7). -/
def kStd : Nat := 255
/-- K_TRACK (00_scope.md R7, 90_conflicts.md C3). -/
def kTrack : Nat := 225
/-- C8 (00_scope.md R7). -/
def c8 : Nat := 130305
/-- S8 (00_scope.md R7). -/
def s8 : Nat := 16
/-- C10 (00_scope.md R7). -/
def c10 : Nat := 2094081
/-- S10 (00_scope.md R7). -/
def s10 : Nat := 20
/-- F_TIM in Hz: timing only (00_scope.md R7, 90_conflicts.md C6). -/
def fTim : Nat := 16000000

/-- DESIGN CHOICE (entry 2, safe). T_CHANGE is OPEN: the spec gives no value, only the range of 00_scope.md R8.
It has no body here, so nothing can be proved of it beyond its range. -/
opaque tChange : Fin 65485

/-- DESIGN CHOICE (entry 16, safe). TICKS_PER_MS is OPEN; the spec says only that it is above 0 (00_scope.md R7). -/
opaque ticksPerMsLessOne : Nat

/-- TICKS_PER_MS, timing only: no rule's value depends on it (00_scope.md R7). -/
def ticksPerMs : Nat := ticksPerMsLessOne + 1

/-- The default build: PWM_BITS = 8 and PWM_INCLUSIVE = false are the spec's defaults (00_scope.md R7; entry 3),
T_CHANGE is open (entry 2). -/
def defaultBuild : Build := { pwmBits := .eight, tChange := tChange, pwmInclusive := false }

end Config

/-- The carrier frequency in Hz, F_TIM / 2^PWM_BITS (44_pwm_output.md R180). Timing only. -/
def Build.carrierHz (b : Build) : Nat := Config.fTim / b.period

/-- The number of Ticks from the acceptance of a RAMP to its end, T_CHANGE + 51 (41_transition.md R125). -/
def Build.rampTicks (b : Build) : Nat := b.tChange.val + Config.holdMs + 1

end Sys2Proof
end

