-- ==== Sys2Proof/Machine/State.lean ====
section
/-! DEFINITION. The registers and the state of the block (10_state.md R21 to R36), what its outside agents still have to
do, and the reasons a step can stop. -/

namespace Sys2Proof.Machine

open Sys2Proof

/-- The faults of the machine: there is none, because the block has no trap and a command error is recorded state,
not a fault (60_exceptions.md R205, R207). -/
inductive Fault where
deriving DecidableEq, Repr

/-- The refusals. -/
inductive Refusal where
  /-- The fixed name for an instruction without a meaning. No arm of exec answers it: all five have one. Safe. -/
  | notModelled (mnemonic : String)
  /-- `buildOf` answers it for parameters outside 00_scope.md R8, which a model must refuse when it is built
  (60_exceptions.md R207). No step answers it. Safe: nothing runs. -/
  | illegalBuild
deriving DecidableEq, Repr

/-- What falls in one clock cycle: any set of the events of 00_scope.md R11, applied in the order of 20_memory.md
R55. A cycle that holds one event is that event alone (entry 5). -/
structure ClockCycle where
  /-- A Reset event. -/
  reset : Bool := false
  /-- A PwmClk event. -/
  pwmClk : Bool := false
  /-- A Tick event. -/
  tick : Bool := false
  /-- The host presents the first of its words still to be taken (a Cmd event, or a held word). -/
  cmdValid : Bool := false
  /-- A Read event and its address. -/
  read : Option RegAddr := none
deriving DecidableEq, Repr

/-- The ten registers of 10_state.md R36 in a block of the build b: DUTY, CNT and DUTY_ACT have the width PWM_BITS that
b fixes. -/
@[ext]
structure Regs (b : Build) where
  /-- LIN_CUR (R21). -/
  linCur : Lin
  /-- LIN_TGT (R22). -/
  linTgt : Lin
  /-- LIN_START (R23). -/
  linStart : Lin
  /-- DUTY (R24). -/
  duty : PwmVal b
  /-- BUSY (R25). -/
  busy : Bool
  /-- ELAPSED (R26). -/
  elapsed : BitVec 16
  /-- ERR (R27). -/
  err : Bool
  /-- ERRCODE (R28). -/
  errCode : BitVec 2
  /-- CNT (R32). -/
  cnt : PwmVal b
  /-- DUTY_ACT (R33). -/
  dutyAct : PwmVal b
deriving DecidableEq, Repr

/-- The state. `build` holds the parameters no event changes, `regs` the registers of a block so built; `words`,
`inputs` and `readResult` stand for the agents outside the block (entries 5, 6 and 8). -/
structure State where
  /-- The build parameters, and with them CONFIG and TCHANGE (10_state.md R30, R31; entry 1). -/
  build : Build
  /-- The registers. -/
  regs : Regs build
  /-- The host's command words not yet accepted, in order; the first is the one it presents (20_memory.md R54). -/
  words : List Word
  /-- The cycles still to come. -/
  inputs : List ClockCycle
  /-- What the last cycle's Read returned; none if it made none. -/
  readResult : Option Word
deriving DecidableEq, Repr

/-- The reset values of 10_state.md R36: every register 0. -/
def Regs.reset (b : Build) : Regs b :=
  { linCur := 0, linTgt := 0, linStart := 0, duty := 0, busy := false, elapsed := 0
    err := false, errCode := 0, cnt := 0, dutyAct := 0 }

/-- The state after Reset or power-up of a block with the given build (70_reset_and_hazards.md R230, R231), nothing
placed by the outside. -/
def State.resetOf (b : Build) : State :=
  { build := b, regs := Regs.reset b, words := [], inputs := [], readResult := none }

/-- The default build right after reset (10_state.md R36; entries 2, 3 and 11). -/
def State.reset : State := State.resetOf Config.defaultBuild

/-! `REG <- v` of 00_scope.md R10, one definition per register, and the same for the fields of State. -/

section
variable {b : Build} (r : Regs b)

/-- LIN_CUR <- v. -/
def Regs.setLinCur (v : Lin) : Regs b := { r with linCur := v }
/-- LIN_TGT <- v. -/
def Regs.setLinTgt (v : Lin) : Regs b := { r with linTgt := v }
/-- LIN_START <- v. -/
def Regs.setLinStart (v : Lin) : Regs b := { r with linStart := v }
/-- DUTY <- v. -/
def Regs.setDuty (v : PwmVal b) : Regs b := { r with duty := v }
/-- BUSY <- v. -/
def Regs.setBusy (v : Bool) : Regs b := { r with busy := v }
/-- ELAPSED <- v. -/
def Regs.setElapsed (v : BitVec 16) : Regs b := { r with elapsed := v }
/-- ERR <- v. -/
def Regs.setErr (v : Bool) : Regs b := { r with err := v }
/-- ERRCODE <- v. -/
def Regs.setErrCode (v : BitVec 2) : Regs b := { r with errCode := v }
/-- CNT <- v. -/
def Regs.setCnt (v : PwmVal b) : Regs b := { r with cnt := v }
/-- DUTY_ACT <- v. -/
def Regs.setDutyAct (v : PwmVal b) : Regs b := { r with dutyAct := v }

end

/-- Replace the registers. -/
def State.setRegs (s : State) (v : Regs s.build) : State := { s with regs := v }
/-- Replace the host's words. -/
def State.setWords (s : State) (v : List Word) : State := { s with words := v }
/-- Replace the cycles to come. -/
def State.setInputs (s : State) (v : List ClockCycle) : State := { s with inputs := v }
/-- Replace the read result. -/
def State.setReadResult (s : State) (v : Option Word) : State := { s with readResult := v }

end Sys2Proof.Machine
end

