-- ==== Sys2Proof/Machine/Flags.lean ====
section
/-! DEFINITION. The flags BUSY, ERR and ERRCODE as software and the pins see them (10_state.md R29, R35). -/

namespace Sys2Proof.Machine

open Sys2Proof

/-- The code a command error is recorded under (60_exceptions.md R200). -/
def errorCode : CmdError → BitVec 2
  | .illegalOp => 1
  | .rsvBits => 2

/-- STATUS = zext_16({ERRCODE, ERR, BUSY}) (10_state.md R29, 20_memory.md R51). -/
def statusWord {b : Build} (r : Regs b) : Word := 0#12 ++ r.errCode ++ BitVec.ofBool r.err ++ BitVec.ofBool r.busy

/-- The pin cmd_ready: 1 exactly when BUSY = 0 (10_state.md R35). -/
def cmdReady {b : Build} (r : Regs b) : Bool := !r.busy

/-- The pin busy (20_memory.md R56). -/
def busyPin {b : Build} (r : Regs b) : Bool := r.busy

end Sys2Proof.Machine
end

