-- ==== Sys2Proof/Machine/Operands.lean ====
section
/-! DEFINITION. The combinational datapath every DUTY write goes through (40_corrector.md) and the ramp's interpolator
(41_transition.md R120). Arithmetic is exact on unbounded integers (00_scope.md R9, 40_corrector.md R105) and narrowed
only at the end. -/

namespace Sys2Proof.Machine

open Sys2Proof

/-- K: the multiplier of the 8-bit build's rescale on each path (40_corrector.md R100, 90_conflicts.md C3). -/
def pathScale : OutPath → Nat
  | .std => Config.kStd
  | .track => Config.kTrack

/-- From the linear domain to the output domain (40_corrector.md R100). -/
def rescale (b : Build) (p : OutPath) (v : Lin) : Nat :=
  match b.pwmBits with
  | .eight => v.toNat * pathScale p / 1023
  | .ten => v.toNat

/-- The correction of the 8-bit build, with the clamp kept for totality (40_corrector.md R101). -/
def corr8 (x : Nat) : Nat := min ((x * x * x + Config.c8) / 2 ^ Config.s8) 255

/-- The correction of the 10-bit build, with the clamp kept for totality (40_corrector.md R102). -/
def corr10 (x : Nat) : Nat := min ((x * x * x + Config.c10) / 2 ^ Config.s10) 1023

/-- The correction of a build: exactly one of the two (40_corrector.md R103). -/
def corr (b : Build) (x : Nat) : Nat :=
  match b.pwmBits with
  | .eight => corr8 x
  | .ten => corr10 x

/-- The output function on naturals: rescale, then correct (40_corrector.md R104, 90_conflicts.md C2). -/
def outNat (b : Build) (p : OutPath) (v : Lin) : Nat := corr b (rescale b p v)

/-- The output function: the only value any command writes to DUTY (40_corrector.md R104). -/
def out (b : Build) (p : OutPath) (v : Lin) : PwmVal b := BitVec.ofNat b.pwmBits.width (outNat b p v)

/-- Linear interpolation from s to t at e of T milliseconds, signed, the division truncating toward zero
(41_transition.md R120). -/
def lerpInt (s t : Int) (e T : Nat) : Int :=
  if T = 0 then t else s + ((t - s) * (min e T : Nat)).tdiv T

/-- The interpolated linear level: `lerpInt` in the ten bits it fits (41_transition.md R120). -/
def lerp (s t : Lin) (e T : Nat) : Lin := BitVec.ofInt 10 (lerpInt s.toNat t.toNat e T)

end Sys2Proof.Machine
end

