-- ==== Sys2Proof/Machine/Ops.lean ====
section
/-! DEFINITION. The shared operations: building a block, reading a register, one ramp sample, a direct write,
recording a command error and clearing it, and the events Tick, PwmClk and Reset. -/

namespace Sys2Proof.Machine

open Sys2Proof

/-- Build a block from its parameters; any combination outside 00_scope.md R8 is refused (60_exceptions.md R207). -/
def buildOf (pwmBits tChange : Nat) (pwmInclusive : Bool) : Except Refusal Build :=
  if h : tChange < 65485 then
    if pwmBits = 8 then .ok { pwmBits := .eight, tChange := ⟨tChange, h⟩, pwmInclusive := pwmInclusive }
    else if pwmBits = 10 then .ok { pwmBits := .ten, tChange := ⟨tChange, h⟩, pwmInclusive := pwmInclusive }
    else .error .illegalBuild
  else .error .illegalBuild

/-- CONFIG: bit 0 is PWM10 (10_state.md R30). -/
def configWord (b : Build) : Word :=
  match b.pwmBits with
  | .eight => 0
  | .ten => 1

/-- TCHANGE: the built value of T_CHANGE (10_state.md R31). -/
def tChangeWord (b : Build) : Word := BitVec.ofNat 16 b.tChange.val

/-- RegRead(a): the register read map (20_memory.md R51). -/
def regRead {b : Build} (a : RegAddr) (r : Regs b) : Word :=
  match a.toNat with
  | 0 => statusWord r
  | 1 => r.linCur.setWidth 16
  | 2 => r.linTgt.setWidth 16
  | 3 => r.linStart.setWidth 16
  | 4 => r.duty.setWidth 16
  | 5 => r.elapsed
  | 6 => configWord b
  | _ => tChangeWord b

/-- A command is taken only when BUSY = 0; otherwise it is held and no state changes (20_memory.md R54). -/
def whenIdle (s : State) (op : Regs s.build → Regs s.build) : Host.Outcome State Fault Refusal :=
  if s.regs.busy then .next s else .next (s.setRegs (op s.regs))

section
variable {b : Build}

/-- sample(e): one interpolator iteration, always on the STD path (41_transition.md R124). -/
def sample (e : Nat) (r : Regs b) : Regs b :=
  let l := lerp r.linStart r.linTgt e b.tChange.val
  (r.setLinCur l).setDuty (out b .std l)

/-- Start a ramp to v: capture the start, set the target, clear ELAPSED, set BUSY, take the first sample
(41_transition.md R121). -/
def startRamp (v : Lin) (r : Regs b) : Regs b :=
  sample 0 ((((r.setLinStart r.linCur).setLinTgt v).setElapsed 0).setBusy true)

/-- direct(path, v, U): the shared body of both direct writes (42_direct.md R140). -/
def direct (p : OutPath) (v : Lin) (u : Bool) (r : Regs b) : Regs b :=
  let r1 := r.setDuty (out b p v)
  if u then (r1.setLinCur v).setLinTgt v else r1

/-- raise CmdError(code): TAKING the block's one exceptional event. The first code since the last clear is kept,
ERR is set, nothing else changes; nothing is saved and no control is transferred (60_exceptions.md R201, R205). -/
def raiseCmdError (c : CmdError) (r : Regs b) : Regs b :=
  let r1 := if r.err then r else r.setErrCode (errorCode c)
  r1.setErr true

/-- Clear the command-error record, the block's only "return" (43_control.md R161, 60_exceptions.md R206). -/
def clearErrorRecord (r : Regs b) : Regs b := (r.setErr false).setErrCode 0

/-- Tick: one millisecond of timer feedback (41_transition.md R123, 90_conflicts.md C4). -/
def tick (r : Regs b) : Regs b :=
  if r.busy then
    let r1 := r.setElapsed (r.elapsed + 1)
    if r1.elapsed.toNat > b.tChange.val + Config.holdMs then r1.setBusy false
    else sample r1.elapsed.toNat r1
  else r

/-- PwmClk: one step of the carrier; a wrap loads DUTY into DUTY_ACT (44_pwm_output.md R181). -/
def pwmClk (r : Regs b) : Regs b :=
  if r.cnt.toNat = b.pwmMax then (r.setCnt 0).setDutyAct r.duty
  else r.setCnt (r.cnt + 1)

/-- pwm_out, a function of state (44_pwm_output.md R183, 10_state.md R34). -/
def pwmOut (r : Regs b) : Bool :=
  if b.pwmInclusive then decide (r.cnt.toNat ≤ r.dutyAct.toNat)
  else decide (r.cnt.toNat < r.dutyAct.toNat)

end

/-- Reset: every register to its reset value; the build values stay, and so does all that the outside agents hold: a
presented word is not consumed (70_reset_and_hazards.md R230, 10_state.md R36). -/
def resetEvent (s : State) : State := s.setRegs (Regs.reset s.build)

end Sys2Proof.Machine
end

