-- ==== Sys2Proof/Machine/Control.lean ====
section
/-! DEFINITION. The meanings of NOP and CLRERR (43_control.md). -/

namespace Sys2Proof.Machine

open Sys2Proof

/-- NOP: no state changes (43_control.md R160). -/
def execNop (s : State) : Host.Outcome State Fault Refusal := whenIdle s (fun r => r)

/-- CLRERR: clear the command-error record (43_control.md R161). -/
def execClrerr (s : State) : Host.Outcome State Fault Refusal := whenIdle s clearErrorRecord

end Sys2Proof.Machine
end

