-- ==== Sys2Proof/Machine/Direct.lean ====
section
/-! DEFINITION. The meanings of SETD and SETT (42_direct.md). -/

namespace Sys2Proof.Machine

open Sys2Proof

/-- SETD v, U: the direct write on the STD path (42_direct.md R141). -/
def execSetd (v : Lin) (u : Bool) (s : State) : Host.Outcome State Fault Refusal := whenIdle s (direct .std v u)

/-- SETT v, U: the direct write on the TRACK path (42_direct.md R142). -/
def execSett (v : Lin) (u : Bool) (s : State) : Host.Outcome State Fault Refusal := whenIdle s (direct .track v u)

end Sys2Proof.Machine
end

