-- ==== Sys2Proof/Machine/Transition.lean ====
section
/-! DEFINITION. The meaning of RAMP (41_transition.md). -/

namespace Sys2Proof.Machine

open Sys2Proof

/-- RAMP v (41_transition.md R121). -/
def execRamp (v : Lin) (s : State) : Host.Outcome State Fault Refusal := whenIdle s (startRamp v)

end Sys2Proof.Machine
end

