-- ==== Sys2Proof/Machine/Dispatch.lean ====
section
/-! DEFINITION. exec: one arm per constructor of Instr, one meaning each. -/

namespace Sys2Proof.Machine

open Sys2Proof

def exec (i : Instr) (s : State) : Host.Outcome State Fault Refusal :=
  match i with
  | .nop => Sys2Proof.Machine.execNop s
  | .ramp v => Sys2Proof.Machine.execRamp v s
  | .setd v u => Sys2Proof.Machine.execSetd v u s
  | .sett v u => Sys2Proof.Machine.execSett v u s
  | .clrerr => Sys2Proof.Machine.execClrerr s

end Sys2Proof.Machine
end

