-- ==== Sys2Proof/Machine/Events.lean ====
section
/-! DEFINITION. Accepting a command word, and the events of one cycle in the order of 20_memory.md R55. -/

namespace Sys2Proof.Machine

open Sys2Proof

/-- accept(w): a word is decoded only when it is accepted, that is when BUSY = 0; a malformed one is recorded as a
command error and is otherwise without effect (30_encoding.md R76, 60_exceptions.md R201, R204). While BUSY = 1
nothing happens (20_memory.md R54). -/
def accept (w : Word) (s : State) : Host.Outcome State Fault Refusal :=
  if s.regs.busy then .next s
  else
    match decode w with
    | .ok i => exec i s
    | .error c => .next (s.setRegs (raiseCmdError c s.regs))

/-- Take the word the host presents, if it presents one: it leaves the host's list and is performed in the same step
(20_memory.md R54). -/
def takeWord (s : State) : Host.Outcome State Fault Refusal :=
  match s.words with
  | [] => .next s
  | w :: ws => accept w (s.setWords ws)

/-- The PwmClk of a cycle, if it has one. -/
def clkPhase {b : Build} (c : ClockCycle) (r : Regs b) : Regs b := if c.pwmClk then pwmClk r else r

/-- The Tick of a cycle, if it has one. -/
def tickPhase {b : Build} (c : ClockCycle) (r : Regs b) : Regs b := if c.tick then tick r else r

/-- The Cmd of a cycle: taken only if BUSY was 0 at the start of the cycle, else the word stays presented
(20_memory.md R54, R55). -/
def cmdPhase (c : ClockCycle) (busyAtStart : Bool) (s : State) : Host.Outcome State Fault Refusal :=
  if c.cmdValid && !busyAtStart then takeWord s else .next s

/-- The Read of a cycle: it sees the result of every other event of the cycle and changes no register
(20_memory.md R55, 43_control.md R163). -/
def readPhase (c : ClockCycle) (s : State) : State := s.setReadResult (c.read.map (regRead · s.regs))

/-- One cycle: Reset alone if it is present; else PwmClk, Tick, Cmd, Read (20_memory.md R55). -/
def runCycle (c : ClockCycle) (s : State) : Host.Outcome State Fault Refusal :=
  if c.reset then .next ((resetEvent s).setReadResult none)
  else
    match cmdPhase c s.regs.busy (s.setRegs (tickPhase c (clkPhase c s.regs))) with
    | .next t => .next (readPhase c t)
    | .fault f => .fault f
    | .refused r => .refused r

/-- The cycle of the input pins of 20_memory.md R56 (informative): each cycle gives one PwmClk and presents a read
address. -/
def cycleOfPins (rst msTick cmdValid : Bool) (rdAddr : RegAddr) : ClockCycle :=
  { reset := rst, pwmClk := true, tick := msTick, cmdValid := cmdValid, read := some rdAddr }

/-- Place the bits w of a command in front of the host's words, and a cycle that only presents it in front of the
cycles to come (entries 6 and 11). -/
def presentNext (nbits w : Nat) (s : State) : State :=
  (s.setWords (BitVec.ofNat 16 (w % 2 ^ nbits) :: s.words)).setInputs ({ cmdValid := true } :: s.inputs)

/-- Consume the next cycle: nothing happens when no cycle is left (entry 7). -/
def nextCycle (s : State) : Host.Outcome State Fault Refusal :=
  match s.inputs with
  | [] => .next s
  | c :: cs => runCycle c (s.setInputs cs)

end Sys2Proof.Machine
end

