-- ==== Sys2Proof/Machine/Step.lean ====
section
/-! DEFINITION. One step of the machine: one cycle. -/

namespace Sys2Proof.Machine

open Sys2Proof

/-- One step: the events of the next cycle (20_memory.md R55). -/
def step (s : State) : Host.Outcome State Fault Refusal := nextCycle s

/-- The state s with the command whose bits are w presented by the host, so that the next step accepts it if
BUSY = 0. It stands for the host presenting a word (entry 11). -/
def State.withFetchWord (s : State) (nbits w : Nat) : State := presentNext nbits w s

end Sys2Proof.Machine
end

