-- ==== Sys2Proof/Machine/Assembler.lean ====
section
/-! DEFINITION. The assembler of BCPD-CMD v1 (30_encoding.md R77, R78): one line of text to its word. -/

namespace Sys2Proof.Machine

open Sys2Proof

/-- The word of a line, or none where the assembler must reject it (30_encoding.md R77, R78). -/
def assemble (a : AsmLine) : Option Word :=
  if a.wellFormed then
    match a with
    | .nop => some (encode .nop)
    | .ramp v => some (encode (.ramp (BitVec.ofNat 10 v)))
    | .setd v u => some (encode (.setd (BitVec.ofNat 10 v) u))
    | .sett v u => some (encode (.sett (BitVec.ofNat 10 v) u))
    | .clrerr => some (encode .clrerr)
    | .word n => some (BitVec.ofNat 16 n)
    | .off => some (encode (.ramp 0))
    | .track v => some (encode (.sett (BitVec.ofNat 10 v) false))
  else none

/-- What a line of text reads as. -/
inductive AsmText where
  /-- Nothing but blanks and a comment. -/
  | blank
  /-- A command; its numbers may still be out of range. -/
  | line (a : AsmLine)
  /-- No line of the syntax. -/
  | malformed
deriving DecidableEq, Repr

/-- The text before a `;`, which starts a comment (30_encoding.md R77). -/
def stripComment : List Char → List Char
  | [] => []
  | c :: cs => if c = ';' then [] else c :: stripComment cs

/-- A token under construction, its last character first, put in front of the tokens after it. -/
def flushToken (cur : List Char) (rest : List (List Char)) : List (List Char) :=
  if cur = [] then rest else cur.reverse :: rest

/-- The tokens of a line: words between blanks, a comma being a token of its own. -/
def tokens (cur : List Char) : List Char → List (List Char)
  | [] => flushToken cur []
  | c :: cs =>
    if c = ' ' ∨ c = '\t' then flushToken cur (tokens [] cs)
    else if c = ',' then flushToken cur ([','] :: tokens [] cs)
    else tokens (c :: cur) cs

/-- A letter in lower case: mnemonics are case-insensitive (30_encoding.md R77). -/
def lowerChar (c : Char) : Char := if 65 ≤ c.toNat ∧ c.toNat ≤ 90 then Char.ofNat (c.toNat + 32) else c

/-- The value of a digit in the base. -/
def digitValue (base : Nat) (c : Char) : Option Nat :=
  let n := (lowerChar c).toNat
  let d := if 48 ≤ n ∧ n ≤ 57 then n - 48 else if 97 ≤ n ∧ n ≤ 102 then n - 87 else base
  if d < base then some d else none

/-- The digits cs read after the value acc. -/
def digits (base : Nat) (acc : Nat) : List Char → Option Nat
  | [] => some acc
  | c :: cs =>
    match digitValue base c with
    | some d => digits base (acc * base + d) cs
    | none => none

/-- A number: decimal, or hexadecimal after `0x` (30_encoding.md R77). -/
def number : List Char → Option Nat
  | '0' :: 'x' :: c :: cs => digits 16 0 (c :: cs)
  | [] => none
  | c :: cs => digits 10 0 (c :: cs)

/-- A line that takes one number. -/
def oneNumber (make : Nat → AsmLine) : List (List Char) → AsmText
  | [v] => match number v with
    | some n => .line (make n)
    | none => .malformed
  | _ => .malformed

/-- A line that takes one number, or one number and the flag U (30_encoding.md R77; entry 14). -/
def numberAndFlag (make : Nat → Bool → AsmLine) : List (List Char) → AsmText
  | [v] => oneNumber (make · false) [v]
  | [v, [','], ['U']] => oneNumber (make · true) [v]
  | _ => .malformed

/-- A line without operands. -/
def noOperand (a : AsmLine) : List (List Char) → AsmText
  | [] => .line a
  | _ => .malformed

/-- Read one line of text (30_encoding.md R77, R78). -/
def parseLine (text : List Char) : AsmText :=
  match tokens [] (stripComment text) with
  | [] => .blank
  | m :: args =>
    let m := m.map lowerChar
    if m = ['n', 'o', 'p'] then noOperand .nop args
    else if m = ['r', 'a', 'm', 'p'] then oneNumber .ramp args
    else if m = ['s', 'e', 't', 'd'] then numberAndFlag .setd args
    else if m = ['s', 'e', 't', 't'] then numberAndFlag .sett args
    else if m = ['c', 'l', 'r', 'e', 'r', 'r'] then noOperand .clrerr args
    else if m = ['.', 'w', 'o', 'r', 'd'] then oneNumber .word args
    else if m = ['o', 'f', 'f'] then noOperand .off args
    else if m = ['t', 'r', 'a', 'c', 'k'] then oneNumber .track args
    else .malformed

/-- The words of a text, one command per line; none if a line is rejected (30_encoding.md R77). -/
def assembleText : List (List Char) → Option (List Word)
  | [] => some []
  | l :: ls =>
    match parseLine l, assembleText ls with
    | .blank, some ws => some ws
    | .line a, some ws => (assemble a).map (· :: ws)
    | _, _ => none

end Sys2Proof.Machine
end

