-- ==== Sys2Proof/Safety.lean ====
section
/-! DEFINITION. The terms in which claims about the block are stated: its invariant, several events in a row, and
states that agree but for the carrier. -/

namespace Sys2Proof.Machine

open Sys2Proof

/-- What holds of the registers in every state a run from reset reaches. DUTY, CNT and DUTY_ACT are at most PWM_MAX,
which their width alone gives (10_state.md R24, R32, R33); ERRCODE is a code and is 0 exactly while ERR = 0 (R28); during
a ramp ELAPSED is at most T_CHANGE + 50 and LIN_CUR and DUTY are the sample at ELAPSED (41_transition.md R123, R124);
while idle LIN_CUR is LIN_TGT and ELAPSED is 0 or T_CHANGE + 51 (10_state.md R26); DUTY = 0 only in the registers' reset
state (42_direct.md R144). -/
structure BlockInv {b : Build} (r : Regs b) : Prop where
  duty_le : r.duty.toNat ≤ b.pwmMax
  cnt_le : r.cnt.toNat ≤ b.pwmMax
  dutyAct_le : r.dutyAct.toNat ≤ b.pwmMax
  errCode_ne_three : r.errCode ≠ 3
  err_iff : r.err = true ↔ r.errCode ≠ 0
  ramping : r.busy = true → r.elapsed.toNat ≤ b.tChange.val + Config.holdMs ∧
    r.linCur = lerp r.linStart r.linTgt r.elapsed.toNat b.tChange.val ∧ r.duty = out b .std r.linCur
  idle : r.busy = false → r.linCur = r.linTgt ∧
    (r.elapsed = 0 ∨ r.elapsed.toNat = b.tChange.val + Config.holdMs + 1)
  dark : r.duty = 0 → r.linCur = 0 ∧ r.linTgt = 0 ∧ r.linStart = 0 ∧ r.elapsed = 0 ∧ r.busy = false ∧ r.dutyAct = 0

/-- The registers with a command error of the code recorded: the first code since the last clear is kept, and nothing
else changes (60_exceptions.md R201). -/
def errorRecorded {b : Build} (code : BitVec 2) (r : Regs b) : Regs b :=
  { r with err := true, errCode := if r.err then r.errCode else code }

/-- n Ticks and no other event. -/
def ticks {b : Build} : Nat → Regs b → Regs b
  | 0, r => r
  | n + 1, r => ticks n (tick r)

/-- n PwmClk events and no other event. -/
def clocks {b : Build} : Nat → Regs b → Regs b
  | 0, r => r
  | n + 1, r => clocks n (pwmClk r)

/-- For how many of the next n PwmClk events, the present one first, pwm_out is high (44_pwm_output.md R183). -/
def highClocks {b : Build} : Nat → Regs b → Nat
  | 0, _ => 0
  | n + 1, r => (if pwmOut r then 1 else 0) + highClocks n (pwmClk r)

/-- The state with the carrier's registers forgotten. -/
def forgetCarrier (s : State) : State := s.setRegs ((s.regs.setCnt 0).setDutyAct 0)

/-- No cycle of the list holds a Reset. -/
def noReset (cs : List ClockCycle) : Prop := ∀ c ∈ cs, c.reset = false

/-- The number of Ticks in the cycles. -/
def tickCount (cs : List ClockCycle) : Nat := cs.countP (·.tick)

/-- The number of PwmClk events in the cycles. -/
def clockCount (cs : List ClockCycle) : Nat := cs.countP (·.pwmClk)

/-- The cycle whose only event is that the host presents a word. -/
def cmdCycle : ClockCycle := { cmdValid := true }

/-- The cycle whose only event is a Reset. -/
def resetCycle : ClockCycle := { reset := true }

end Sys2Proof.Machine
end

