-- ==== Sys2Proof/Certificates/Slice0/Obligations.lean ====
section
/-! DEFINITION. The statements about the block, for the provers. Each docstring names the rule of spec/ it formalises. -/

open Sys2Proof Sys2Proof.Machine

/-! Encoding. -/

/-- Decoding an instruction's word gives the instruction back: no bit of an operand is dropped (30_encoding.md §3). -/
def Obligations.DecodeReadsBackEveryInstruction : Prop := ∀ i : Instr, decode (encode i) = .ok i

/-- Each well-formed word has one meaning: it is the encoding of the instruction it decodes to (30_encoding.md §3). -/
def Obligations.WellFormedWordIsTheEncodingOfItsInstruction : Prop :=
  ∀ (w : Word) (i : Instr), decode w = .ok i → encode i = w

/-- R74: the match and mask of each row select exactly the words of its instruction, OP ≥ 5 is illegal, and at most one
row matches any word. -/
def Obligations.OpcodeMapSelectsTheDecodedRow : Prop :=
  ∀ w : Word,
    (w &&& 0xFFFF = 0x0000 ↔ decode w = .ok .nop) ∧
    (w &&& 0xFC00 = 0x1000 ↔ ∃ v, decode w = .ok (.ramp v)) ∧
    (w &&& 0xF800 = 0x2000 ↔ ∃ v u, decode w = .ok (.setd v u)) ∧
    (w &&& 0xF800 = 0x3000 ↔ ∃ v u, decode w = .ok (.sett v u)) ∧
    (w &&& 0xFFFF = 0x4000 ↔ decode w = .ok .clrerr) ∧
    (5 ≤ w.toNat / 4096 ↔ decode w = .error .illegalOp) ∧
    (∀ i, decode w = .ok i → w.toNat / 4096 = (match i with
      | .nop => 0 | .ramp _ => 1 | .setd _ _ => 2 | .sett _ _ => 3 | .clrerr => 4)) ∧
    (∀ r ∈ OpRow.table, ∀ q ∈ OpRow.table, r.selectedBy w = true → q.selectedBy w = true → r = q)

/-- R75: which words are illegal (45056 of them) and which have a must-be-zero bit set, both held while BUSY = 1, and
NOP is the only word with no effect on any idle state. -/
def Obligations.MalformedWordsAreExactlyTheReservedOnes : Prop :=
  (∀ w : Word,
    (decode w = .error .illegalOp ↔ 5 ≤ w.toNat / 4096) ∧
    (decode w = .error .rsvBits ↔
      ((w.toNat / 4096 = 0 ∨ w.toNat / 4096 = 4) ∧ w.toNat % 4096 ≠ 0) ∨
      (w.toNat / 4096 = 1 ∧ w.toNat / 1024 % 4 ≠ 0) ∨
      ((w.toNat / 4096 = 2 ∨ w.toNat / 4096 = 3) ∧ w.toNat / 2048 % 2 = 1)) ∧
    (∀ s, s.regs.busy = true → accept w s = .next s) ∧
    ((∀ s, s.regs.busy = false → accept w s = .next s) ↔ w = 0x0000)) ∧
  (∀ (w : Word) (c : CmdError) (s : State), decode w = .error c → s.regs.busy = false →
    accept w s = .next { s with
      regs := errorRecorded (match c with | .illegalOp => 1 | .rsvBits => 2) s.regs }) ∧
  Set.ncard { w : Word | decode w = .error .illegalOp } = 45056

/-- R79: the example encodings, from assembler text to word and from word to instruction or error. -/
def Obligations.ExampleWordsEncodeAndDecode : Prop :=
  (assembleText [['R','A','M','P',' ','5','1','2'], ['R','A','M','P',' ','1','0','2','3'], ['R','A','M','P',' ','0'],
      ['O','F','F'], ['S','E','T','D',' ','3','0','0',',',' ','U'], ['S','E','T','T',' ','3','0','0'],
      ['S','E','T','T',' ','1','0','2','3',',',' ','U'], ['C','L','R','E','R','R'], ['N','O','P'],
      ['.','w','o','r','d',' ','0','x','5','0','0','0'], ['.','w','o','r','d',' ','0','x','1','4','0','0'],
      ['.','w','o','r','d',' ','0','x','2','8','0','0'], ['.','w','o','r','d',' ','0','x','0','0','0','1']] =
    some [0x1200, 0x13FF, 0x1000, 0x1000, 0x252C, 0x312C, 0x37FF, 0x4000, 0x0000, 0x5000, 0x1400, 0x2800, 0x0001]) ∧
  decode 0x1200 = .ok (.ramp 512) ∧ decode 0x13FF = .ok (.ramp 1023) ∧ decode 0x1000 = .ok (.ramp 0) ∧
  decode 0x252C = .ok (.setd 300 true) ∧ decode 0x312C = .ok (.sett 300 false) ∧
  decode 0x37FF = .ok (.sett 1023 true) ∧ decode 0x4000 = .ok .clrerr ∧ decode 0x0000 = .ok .nop ∧
  decode 0x5000 = .error .illegalOp ∧ decode 0x1400 = .error .rsvBits ∧ decode 0x2800 = .error .rsvBits ∧
  decode 0x0001 = .error .rsvBits

/-- The syntax table and the pseudo-instructions: the word of every line, and the numbers that are rejected
(30_encoding.md §4). -/
def Obligations.AssemblerEmitsTheTabulatedWords : Prop :=
  ∀ n : Nat,
    assemble .nop = some 0x0000 ∧ assemble .clrerr = some 0x4000 ∧ assemble .off = some 0x1000 ∧
    (n ≤ 1023 →
      assemble (.ramp n) = some (BitVec.ofNat 16 (0x1000 + n)) ∧
      assemble (.setd n false) = some (BitVec.ofNat 16 (0x2000 + n)) ∧
      assemble (.setd n true) = some (BitVec.ofNat 16 (0x2400 + n)) ∧
      assemble (.sett n false) = some (BitVec.ofNat 16 (0x3000 + n)) ∧
      assemble (.sett n true) = some (BitVec.ofNat 16 (0x3400 + n)) ∧
      assemble (.track n) = assemble (.sett n false)) ∧
    (1023 < n →
      assemble (.ramp n) = none ∧ (∀ u, assemble (.setd n u) = none ∧ assemble (.sett n u) = none) ∧
      assemble (.track n) = none) ∧
    (n ≤ 0xFFFF → assemble (.word n) = some (BitVec.ofNat 16 n)) ∧
    (0xFFFF < n → assemble (.word n) = none)

/-- What the assembler emits for any line but `.word` is a well-formed word and decodes (30_encoding.md §4). -/
def Obligations.AssembledCommandsDecode : Prop :=
  ∀ (a : AsmLine) (w : Word), assemble a = some w → (∀ n, a ≠ .word n) →
    wordWellFormed w = true ∧ ∃ i, decode w = .ok i

/-! The datapath. -/

/-- R100: the rescale on both paths and in both builds, its ranges, corner cases and example. -/
def Obligations.RescaleFollowsThePathAndBuild : Prop :=
  ∀ b : Build,
    (b.pwmBits = .eight →
      (∀ v : Lin, rescale b .std v = v.toNat * 255 / 1023 ∧ rescale b .track v = v.toNat * 225 / 1023 ∧
        v.toNat * 255 ≤ 260865 ∧ rescale b .std v ≤ 255 ∧ rescale b .track v ≤ 225 ∧
        (v.toNat ≤ 4 → rescale b .std v = 0 ∧ rescale b .track v = 0) ∧
        (rescale b .std v = 255 ↔ v = 1023)) ∧
      rescale b .std 1023 = 255 ∧ rescale b .track 1023 = 225 ∧ rescale b .std 5 = 1 ∧ rescale b .track 5 = 1 ∧
      rescale b .std 512 = 127) ∧
    (b.pwmBits = .ten → ∀ (p : OutPath) (v : Lin), rescale b p v = v.toNat ∧ rescale b p v ≤ 1023)

/-- R101 and R102: the cubic of both builds; the clamp never changes a result inside the domain and keeps the function
total outside it. -/
def Obligations.CubicCorrectionWithInactiveClamp : Prop :=
  (∀ x, corr8 x = min ((x * x * x + 130305) / 65536) 255) ∧
  (∀ x, x ≤ 255 → corr8 x = (x * x * x + 130305) / 65536) ∧
  (∀ x, x ≤ 9 → corr8 x = 1) ∧ corr8 10 = 2 ∧ corr8 254 = 252 ∧ corr8 255 = 255 ∧ corr8 127 = 33 ∧
  255 * 255 * 255 + 130305 = 255 * 65536 ∧
  (∀ x, corr10 x = min ((x * x * x + 2094081) / 1048576) 1023) ∧
  (∀ x, x ≤ 1023 → corr10 x = (x * x * x + 2094081) / 1048576) ∧
  (∀ x, x ≤ 14 → corr10 x = 1) ∧ corr10 1022 = 1020 ∧ corr10 1023 = 1023 ∧ corr10 512 = 129 ∧
  1023 * 1023 * 1023 + 2094081 = 1023 * 1048576

/-- R103 and R104: out is the build's correction of the rescaled value, with nothing lost in the register's width; it is
the only value a command writes to DUTY; and the examples of both builds. -/
def Obligations.OutIsCorrectedRescale : Prop :=
  (∀ (s t : State) (i : Instr), exec i s = .next t → t.regs.duty.toNat ≠ s.regs.duty.toNat →
    ∃ p v, t.regs.duty = out t.build p v) ∧
  ∀ b : Build,
    (∀ (p : OutPath) (v : Lin), (out b p v).toNat = corr b (rescale b p v) ∧ (out b p v).toNat ≤ b.pwmMax) ∧
    (b.pwmBits = .eight →
      (∀ x, corr b x = corr8 x) ∧ out b .std 512 = 33 ∧ out b .std 1023 = 255 ∧ out b .track 300 = 6 ∧
      out b .track 1023 = 175) ∧
    (b.pwmBits = .ten →
      (∀ x, corr b x = corr10 x) ∧ out b .std 512 = 129 ∧ out b .track 512 = 129)

/-- R105: the widths of 18, 24 and 30 bits hold every intermediate, so the same computation on 32-bit words gives the
exact result. -/
def Obligations.ThirtyTwoBitDatapathIsExact : Prop :=
  (∀ (p : OutPath) (v : Lin), v.toNat * pathScale p < 2 ^ 18 ∧
    ((v.setWidth 32 * BitVec.ofNat 32 (pathScale p)) / 1023#32).toNat = v.toNat * pathScale p / 1023) ∧
  (∀ x : BitVec 32, x.toNat ≤ 255 → x.toNat * x.toNat * x.toNat + 130305 < 2 ^ 24 ∧
    ((x * x * x + 130305#32) >>> 16).toNat = corr8 x.toNat) ∧
  (∀ x : BitVec 32, x.toNat ≤ 1023 → x.toNat * x.toNat * x.toNat + 2094081 < 2 ^ 30 ∧
    ((x * x * x + 2094081#32) >>> 20).toNat = corr10 x.toNat)

/-- R106: the output is monotone and lies in [1, PWM_MAX]; the fixed points; corr(0) = 1; adjacent values differ by at
most 3; how many distinct values there are; the TRACK path of the 8-bit build stops at 175. -/
def Obligations.OutputFunctionProperties : Prop :=
  (∀ (b : Build) (p : OutPath) (v w : Lin), v.toNat ≤ w.toNat → (out b p v).toNat ≤ (out b p w).toNat) ∧
  (∀ (b : Build) (p : OutPath) (v : Lin), 1 ≤ (out b p v).toNat ∧ (out b p v).toNat ≤ b.pwmMax) ∧
  (∀ x, x ≤ 255 → (corr8 x = x ↔ x = 1 ∨ x = 255)) ∧
  (∀ x, x ≤ 1023 → (corr10 x = x ↔ x = 1 ∨ x = 1023)) ∧
  (∀ b : Build, corr b b.pwmMax = b.pwmMax ∧ corr b 0 = 1) ∧
  (∀ x, x < 255 → corr8 (x + 1) - corr8 x ≤ 3) ∧ (∀ x, x < 1023 → corr10 (x + 1) - corr10 x ≤ 3) ∧
  ((Finset.range 256).image corr8).card = 158 ∧ ((Finset.range 1024).image corr10).card = 630 ∧
  (∀ b : Build, b.pwmBits = .eight →
    ((Finset.range 1024).image fun n => outNat b .std (BitVec.ofNat 10 n)).card = 158 ∧
    ((Finset.range 1024).image fun n => outNat b .track (BitVec.ofNat 10 n)).card = 128 ∧
    (∀ v : Lin, (out b .track v).toNat ≤ 175) ∧ (out b .track 1023).toNat = 175)

/-- R120: the interpolated level stays between start and target and fits ten bits, meets both ends, lies on the start
side of the exact line by less than one count, and the product fits 27 bits signed. -/
def Obligations.LerpStaysOnTheStartSideOfTheLine : Prop :=
  ∀ (s t : Lin) (e T : Nat),
    ((lerp s t e T).toNat : Int) = (if T = 0 then (t.toNat : Int)
      else s.toNat + (((t.toNat : Int) - s.toNat) * (min e T : Nat)).tdiv T) ∧
    min s.toNat t.toNat ≤ (lerp s t e T).toNat ∧ (lerp s t e T).toNat ≤ max s.toNat t.toNat ∧
    (0 < T → lerp s t 0 T = s) ∧ (T ≤ e → lerp s t e T = t) ∧
    (0 < T → s.toNat ≤ t.toNat →
      ((lerp s t e T).toNat - s.toNat) * T ≤ (t.toNat - s.toNat) * min e T ∧
      (t.toNat - s.toNat) * min e T < ((lerp s t e T).toNat - s.toNat + 1) * T) ∧
    (0 < T → t.toNat ≤ s.toNat →
      (s.toNat - (lerp s t e T).toNat) * T ≤ (s.toNat - t.toNat) * min e T ∧
      (s.toNat - t.toNat) * min e T < (s.toNat - (lerp s t e T).toNat + 1) * T) ∧
    (T ≤ 65484 → (((t.toNat : Int) - s.toNat) * (min e T : Nat)).natAbs < 2 ^ 26)

/-! The instructions. -/

/-- R121: RAMP, accepted when BUSY = 0, starts a ramp from LIN_CUR to v and takes the sample at 0, which is LIN_CUR
itself or, with T_CHANGE = 0, v at once; every other register keeps its value. It is held while BUSY = 1; its words with
a bit of RSV set are errors that start nothing; the ramp runs its full length, also to the current value; the example. -/
def Obligations.RampCapturesTheStartAndTakesTheFirstSample : Prop :=
  (∀ (s : State) (v : Lin), s.regs.busy = false →
    exec (.ramp v) s = .next { s with regs := { s.regs with
      linStart := s.regs.linCur, linTgt := v, elapsed := 0, busy := true
      linCur := if s.build.tChange.val = 0 then v else s.regs.linCur
      duty := out s.build .std (if s.build.tChange.val = 0 then v else s.regs.linCur) } }) ∧
  (∀ (s : State) (v : Lin), s.regs.busy = true → exec (.ramp v) s = .next s) ∧
  (∀ (s : State) (w : Word), s.regs.busy = false → 0x1400 ≤ w.toNat → w.toNat ≤ 0x1FFF →
    accept w s = .next { s with regs := errorRecorded 2 s.regs }) ∧
  (∀ (s t : State) (v : Lin), s.regs.busy = false → exec (.ramp v) s = .next t →
    (∀ k, k ≤ s.build.tChange.val + 50 →
      (ticks k t.regs).busy = true ∧
      (v = s.regs.linCur → (ticks k t.regs).linCur = v ∧ (ticks k t.regs).duty = out t.build .std v)) ∧
    (ticks (s.build.tChange.val + 51) t.regs).busy = false) ∧
  (∀ s : State, s.regs.busy = false → s.build.pwmBits = .eight → s.build.tChange.val = 10 → s.regs.linCur = 0 →
    exec (.ramp 512) s = .next { s with regs := { s.regs with
      linStart := 0, linTgt := 512, elapsed := 0, busy := true, linCur := 0, duty := 1 } }) ∧
  (∀ w : Word, w &&& 0xFC00 = 0x1000 → decode w = .ok (.ramp (w.extractLsb' 0 10))) ∧ decode 0x1200 = .ok (.ramp 512)

/-- R141: SETD writes DUTY on the STD path and, with U, LIN_CUR and LIN_TGT; nothing else changes. Words with bit 11 set
are an error and write nothing. The corner cases of DUTY, and the example. -/
def Obligations.SetdWritesTheStandardPath : Prop :=
  (∀ (s : State) (v : Lin) (u : Bool), s.regs.busy = false →
    exec (.setd v u) s = .next { s with regs := { s.regs with
      duty := out s.build .std v
      linCur := if u then v else s.regs.linCur
      linTgt := if u then v else s.regs.linTgt } }) ∧
  (∀ (s : State) (w : Word), s.regs.busy = false → 0x2800 ≤ w.toNat → w.toNat ≤ 0x2FFF →
    accept w s = .next { s with regs := errorRecorded 2 s.regs }) ∧
  (∀ (s t : State) (v : Lin), s.regs.busy = false → exec (.setd v true) s = .next t →
    t.regs.duty = out t.build .std t.regs.linCur) ∧
  (∀ b : Build, out b .std 0 = 1 ∧ (out b .std 1023).toNat = b.pwmMax) ∧
  (∀ b : Build, b.pwmBits = .eight →
    (∀ v : Lin, v.toNat ≤ 40 → out b .std v = 1) ∧ out b .std 41 = 2 ∧ out b .std 512 = 33) ∧
  (∀ w : Word, w &&& 0xF800 = 0x2000 → decode w = .ok (.setd (w.extractLsb' 0 10) (w.getLsbD 10))) ∧
  decode 0x2600 = .ok (.setd 512 true)

/-- R142: SETT is the same write on the TRACK path, which in the 8-bit build never exceeds the STD path and stops at
175, and in the 10-bit build is the STD path. -/
def Obligations.SettWritesTheTrackingPath : Prop :=
  (∀ (s : State) (v : Lin) (u : Bool), s.regs.busy = false →
    exec (.sett v u) s = .next { s with regs := { s.regs with
      duty := out s.build .track v
      linCur := if u then v else s.regs.linCur
      linTgt := if u then v else s.regs.linTgt } }) ∧
  (∀ (s : State) (w : Word), s.regs.busy = false → 0x3800 ≤ w.toNat → w.toNat ≤ 0x3FFF →
    accept w s = .next { s with regs := errorRecorded 2 s.regs }) ∧
  (∀ b : Build, b.pwmBits = .eight → out b .track 1023 = 175 ∧ out b .track 300 = 6 ∧
    ∀ v : Lin, (out b .track v).toNat ≤ (out b .std v).toNat) ∧
  (∀ (s : State) (v : Lin) (u : Bool), s.build.pwmBits = .ten → exec (.sett v u) s = exec (.setd v u) s) ∧
  (∀ w : Word, w &&& 0xF800 = 0x3000 → decode w = .ok (.sett (w.extractLsb' 0 10) (w.getLsbD 10))) ∧
  (∀ b : Build, out b .track 0 = 1) ∧ decode 0x312C = .ok (.sett 300 false)

/-- R160: NOP completes and changes nothing; the other words of OP 0 are RSV_BITS errors; NOP is held while BUSY = 1. -/
def Obligations.NopChangesNothing : Prop :=
  (∀ s : State, s.regs.busy = false → exec .nop s = .next s) ∧
  (∀ w : Word, decode w = .ok .nop ↔ w = 0x0000) ∧
  (∀ (s : State) (w : Word), s.regs.busy = false → 0x0001 ≤ w.toNat → w.toNat ≤ 0x0FFF →
    accept w s = .next { s with regs := errorRecorded 2 s.regs }) ∧
  (∀ (s t : State) (cs : List ClockCycle) (ws : List Word), s.inputs = cmdCycle :: cs → s.words = 0x0000 :: ws →
    step s = .next t → (t.words = ws ↔ s.regs.busy = false))

/-- R161: CLRERR completes, clears ERR and ERRCODE and nothing else; the other words of OP 4 are RSV_BITS errors that
clear nothing; CLRERR is held while BUSY = 1. -/
def Obligations.ClrerrClearsTheErrorRecord : Prop :=
  (∀ s : State, s.regs.busy = false →
    exec .clrerr s = .next { s with regs := { s.regs with err := false, errCode := 0 } }) ∧
  (∀ w : Word, decode w = .ok .clrerr ↔ w = 0x4000) ∧
  (∀ (s : State) (w : Word), s.regs.busy = false → 0x4001 ≤ w.toNat → w.toNat ≤ 0x4FFF →
    accept w s = .next { s with regs := errorRecorded 2 s.regs }) ∧
  (∀ s : State, s.regs.busy = false → s.regs.err = false → s.regs.errCode = 0 → exec .clrerr s = .next s) ∧
  (∀ s : State, s.regs.busy = true → exec .clrerr s = .next s ∧ accept 0x4000 s = .next s)

/-- R126: no command changes anything during a ramp, and a cycle without Tick and Reset leaves the ramp as it is;
only Reset abandons it. -/
def Obligations.NoCommandCancelsARamp : Prop :=
  ∀ s : State, s.regs.busy = true →
    (∀ i : Instr, exec i s = .next s) ∧ (∀ w : Word, accept w s = .next s) ∧
    (∀ (c : ClockCycle) (t : State), c.reset = false → c.tick = false → runCycle c s = .next t →
      ∃ k a q, t = { s with regs := { s.regs with cnt := k, dutyAct := a }, readResult := q }) ∧
    (∀ (c : ClockCycle) (t : State), c.reset = false → c.tick = true → runCycle c s = .next t →
      t.regs.elapsed = s.regs.elapsed + 1)

/-! Command errors. -/

/-- R201, R202 and R203: an accepted malformed word sets ERR, records its code if it is the first since the last clear,
is consumed and changes nothing else; a word with OP ≥ 5 has code 1, one with a must-be-zero bit set code 2. -/
def Obligations.MalformedWordOnlyRecordsItsError : Prop :=
  (∀ (s : State) (w : Word), s.regs.busy = false → 5 ≤ w.toNat / 4096 →
    accept w s = .next { s with regs := errorRecorded 1 s.regs }) ∧
  (∀ (s : State) (w : Word), s.regs.busy = false →
    ((w.toNat / 4096 = 0 ∨ w.toNat / 4096 = 4) ∧ w.toNat % 4096 ≠ 0 ∨
      w.toNat / 4096 = 1 ∧ w.toNat / 1024 % 4 ≠ 0 ∨
      (w.toNat / 4096 = 2 ∨ w.toNat / 4096 = 3) ∧ w.toNat / 2048 % 2 = 1) →
    accept w s = .next { s with regs := errorRecorded 2 s.regs }) ∧
  (∀ (s : State) (cs : List ClockCycle) (w : Word) (ws : List Word) (e : CmdError), s.inputs = cmdCycle :: cs →
    s.words = w :: ws → s.regs.busy = false → decode w = .error e →
    step s = .next { s with
      inputs := cs, words := ws, readResult := none
      regs := errorRecorded (errorCode e) s.regs })

/-- R27 and R28: ERR is set only by a command error and cleared only by CLRERR and Reset; ERRCODE is written only when
an error comes while ERR = 0, keeps the first code, is cleared by the same two, and is never set to 3; where STATUS
shows them. -/
def Obligations.ErrorRecordIsStickyUntilCleared : Prop :=
  (∀ (s t : State) (c : ClockCycle) (cs : List ClockCycle), s.inputs = c :: cs → step s = .next t →
    (s.regs.err = true → t.regs.err = false → c.reset = true ∨
      (c.cmdValid = true ∧ s.regs.busy = false ∧ s.words.head? = some 0x4000)) ∧
    (s.regs.err = false → t.regs.err = true → c.reset = false ∧ c.cmdValid = true ∧ s.regs.busy = false ∧
      ∃ w e, s.words.head? = some w ∧ decode w = .error e ∧ t.regs.errCode = errorCode e) ∧
    (t.regs.errCode ≠ s.regs.errCode → c.reset = true ∨ (c.cmdValid = true ∧ s.regs.busy = false ∧
      ((s.words.head? = some 0x4000 ∧ t.regs.errCode = 0) ∨
        (s.regs.err = false ∧ ∃ w e, s.words.head? = some w ∧ decode w = .error e ∧ t.regs.errCode = errorCode e)))) ∧
    (c.reset = true → t.regs.err = false ∧ t.regs.errCode = 0) ∧
    (t.regs.errCode = 3 → s.regs.errCode = 3)) ∧
  errorCode .illegalOp = 1 ∧ errorCode .rsvBits = 2 ∧
  (∀ s : State, s.regs.busy = false →
    exec .clrerr s = .next { s with regs := { s.regs with err := false, errCode := 0 } }) ∧
  State.reset.regs.err = false ∧ State.reset.regs.errCode = 0 ∧
  (∀ s : State, (regRead 0 s.regs).getLsbD 1 = s.regs.err ∧ (regRead 0 s.regs).extractLsb' 2 2 = s.regs.errCode)

/-! Ticks and ramps. -/

/-- R123: a Tick while idle changes nothing; while BUSY = 1 (ELAPSED being at most T_CHANGE + 50, as it always is then)
it counts, and either ends the ramp without a sample or takes the sample at the new ELAPSED; ELAPSED does not wrap. -/
def Obligations.TickCountsAndSamples : Prop :=
  ∀ (b : Build) (r : Regs b),
    (r.busy = false → tick r = r) ∧
    (r.busy = true → r.elapsed.toNat ≤ b.tChange.val + 50 →
      (tick r).elapsed.toNat = r.elapsed.toNat + 1 ∧ (tick r).elapsed.toNat ≤ b.tChange.val + 51 ∧
      b.tChange.val + 51 ≤ 65535 ∧
      tick r = if r.elapsed.toNat = b.tChange.val + 50 then
          { r with elapsed := r.elapsed + 1, busy := false }
        else { r with
          elapsed := r.elapsed + 1
          linCur := lerp r.linStart r.linTgt (r.elapsed.toNat + 1) b.tChange.val
          duty := out b .std (lerp r.linStart r.linTgt (r.elapsed.toNat + 1) b.tChange.val) })

/-- R125: after RAMP v is accepted, whatever else happens but a Reset (PwmClk events, Reads, held words), the block stays
BUSY for T_CHANGE + 50 Ticks with the sample at their count in LIN_CUR and DUTY, at the target from the T_CHANGE-th on;
the next Tick ends the ramp at LIN_CUR = LIN_TGT = v, DUTY = out(STD, v), ELAPSED = T_CHANGE + 51, and no word is
taken until then. -/
def Obligations.RampRunsItsFullLengthAndEndsAtTheTarget : Prop :=
  ∀ (s r : State) (v : Lin) (cs rest : List ClockCycle),
    s.regs.busy = false → exec (.ramp v) s = .next r → s.inputs = cs ++ rest → noReset cs →
    tickCount cs ≤ s.build.tChange.val + 50 →
    (∃ t : State, Sys2Proof.core.run cs.length r = .next t ∧
      t.build = s.build ∧ t.inputs = rest ∧ t.words = s.words ∧
      t.regs.busy = true ∧ t.regs.elapsed.toNat = tickCount cs ∧ t.regs.linStart = s.regs.linCur ∧
      t.regs.linTgt = v ∧ t.regs.err = s.regs.err ∧ t.regs.errCode = s.regs.errCode ∧
      t.regs.linCur = lerp s.regs.linCur v (tickCount cs) s.build.tChange.val ∧
      t.regs.duty = out t.build .std t.regs.linCur ∧
      (s.build.tChange.val ≤ tickCount cs → t.regs.linCur = v)) ∧
    (∀ (c : ClockCycle) (rest' : List ClockCycle), rest = c :: rest' → c.reset = false → c.tick = true →
      tickCount cs = s.build.tChange.val + 50 →
      ∃ t : State, Sys2Proof.core.run (cs.length + 1) r = .next t ∧
        t.build = s.build ∧ t.inputs = rest' ∧ t.words = s.words ∧
        t.regs.busy = false ∧ t.regs.elapsed.toNat = s.build.tChange.val + 51 ∧
        t.regs.linCur = v ∧ t.regs.linTgt = v ∧ t.regs.linStart = s.regs.linCur ∧
        t.regs.duty = out t.build .std v ∧ t.regs.err = s.regs.err ∧ t.regs.errCode = s.regs.errCode)

/-- R129: the worked example, 8-bit build, T_CHANGE = 10, RAMP 1023 from LIN_CUR = 0. -/
def Obligations.WorkedRampFromZeroToFull : Prop :=
  ∀ (i : Bool) (r : Regs { pwmBits := .eight, tChange := 10, pwmInclusive := i }),
    r = startRamp 1023 (Regs.reset { pwmBits := .eight, tChange := 10, pwmInclusive := i }) →
    ((List.range 11).map fun k => ((ticks k r).linCur.toNat, (ticks k r).duty.toNat)) =
      [(0, 1), (102, 2), (204, 3), (306, 8), (409, 17), (511, 33), (613, 55), (716, 88), (818, 129), (920, 185),
        (1023, 255)] ∧
    (∀ k, 10 ≤ k → k ≤ 60 → (ticks k r).linCur = 1023 ∧ (ticks k r).duty = 255 ∧ (ticks k r).busy = true) ∧
    (ticks 61 r).busy = false ∧ (ticks 61 r).elapsed = 61

/-! The carrier. -/

/-- R180: the carrier periods and frequencies of the two builds, and one period is that many PwmClk events of the one
counter. -/
def Obligations.CarrierPeriodAndFrequency : Prop :=
  ∀ b : Build,
    (b.pwmBits = .eight → b.period = 256 ∧ b.carrierHz = 62500) ∧
    (b.pwmBits = .ten → b.period = 1024 ∧ b.carrierHz = 15625) ∧
    (∀ (r : Regs b) (k : Nat), (clocks k r).cnt.toNat = (r.cnt.toNat + k) % b.period)

/-- R181: one PwmClk steps CNT, or wraps it and loads DUTY into DUTY_ACT; nothing else changes. -/
def Obligations.PwmClkStepsOrWrapsTheCounter : Prop :=
  ∀ (b : Build) (r : Regs b),
    (r.cnt.toNat = b.pwmMax → pwmClk r = { r with cnt := 0, dutyAct := r.duty }) ∧
    (r.cnt.toNat ≠ b.pwmMax →
      pwmClk r = { r with cnt := r.cnt + 1 } ∧ (pwmClk r).cnt.toNat = r.cnt.toNat + 1)

/-- R182: through any cycles without a Reset, DUTY_ACT keeps its value until the PwmClk that wraps CNT, whatever is
written to DUTY before; the wrap loads the DUTY that stands then, and it comes after 1 to 2^PWM_BITS PwmClk events. -/
def Obligations.DutyReachesTheWaveformOnlyAtTheWrap : Prop :=
  ∀ (s : State) (cs rest : List ClockCycle), s.inputs = cs ++ rest → noReset cs →
    s.regs.cnt.toNat + clockCount cs ≤ s.build.pwmMax →
    ∃ t : State, Sys2Proof.core.run cs.length s = .next t ∧ t.build = s.build ∧ t.inputs = rest ∧
      t.regs.dutyAct.toNat = s.regs.dutyAct.toNat ∧ t.regs.cnt.toNat = s.regs.cnt.toNat + clockCount cs ∧
      (∀ (c : ClockCycle) (rest' : List ClockCycle), rest = c :: rest' → c.reset = false → c.pwmClk = true →
        s.regs.cnt.toNat + clockCount cs = s.build.pwmMax →
        1 ≤ clockCount cs + 1 ∧ clockCount cs + 1 ≤ s.build.period ∧
        ∃ t' : State, Sys2Proof.core.run (cs.length + 1) s = .next t' ∧ t'.build = s.build ∧
          t'.regs.cnt.toNat = 0 ∧ t'.regs.dutyAct.toNat = t.regs.duty.toNat)

/-- R183: the output formula; in the period that starts at CNT = 0 pwm_out is high first, for DUTY_ACT events
(DUTY_ACT + 1 when inclusive), then low; the default compare is exclusive. -/
def Obligations.PwmOutIsHighForTheDutyOfThePeriod : Prop :=
  (∀ (b : Build) (r : Regs b),
    pwmOut r = (if b.pwmInclusive then decide (r.cnt.toNat ≤ r.dutyAct.toNat)
      else decide (r.cnt.toNat < r.dutyAct.toNat)) ∧
    (r.cnt = 0 →
      highClocks b.period r = (if b.pwmInclusive then r.dutyAct.toNat + 1 else r.dutyAct.toNat) ∧
      (∀ k, k < b.period → pwmOut (clocks k r) =
        decide (k < if b.pwmInclusive then r.dutyAct.toNat + 1 else r.dutyAct.toNat)) ∧
      (clocks b.period r).cnt = 0 ∧ (clocks b.period r).dutyAct = r.duty)) ∧
  Config.defaultBuild.pwmInclusive = false

/-- R185: whatever else a cycle without Reset holds, its PwmClk steps the carrier as it would alone, and without one the
carrier stands still. -/
def Obligations.CarrierRunsWhateverElseHappens : Prop :=
  ∀ (s t : State) (c : ClockCycle), c.reset = false → runCycle c s = .next t →
    t.build = s.build ∧
    (c.pwmClk = true → t.regs.cnt.toNat = (pwmClk s.regs).cnt.toNat ∧
      t.regs.dutyAct.toNat = (pwmClk s.regs).dutyAct.toNat) ∧
    (c.pwmClk = false → t.regs.cnt.toNat = s.regs.cnt.toNat ∧ t.regs.dutyAct.toNat = s.regs.dutyAct.toNat)

/-- The carrier's registers influence nothing but themselves and pwm_out: two states that agree but for CNT and DUTY_ACT
go, through the same cycles, to states that agree but for them (44_pwm_output.md, opening and §R181). -/
def Obligations.CarrierDoesNotInfluenceTheOtherRegisters : Prop :=
  ∀ (n : Nat) (s s' : State), forgetCarrier s = forgetCarrier s' →
    ∃ t t' : State, Sys2Proof.core.run n s = .next t ∧ Sys2Proof.core.run n s' = .next t' ∧
      forgetCarrier t = forgetCarrier t'

/-! The ports, reset and the build. -/

/-- R51: the register read map, every unused bit 0, so DUTY reads in PWM_BITS bits. -/
def Obligations.RegisterReadMap : Prop :=
  ∀ (b : Build) (r : Regs b),
    (regRead 0 r).toNat = r.errCode.toNat * 4 + r.err.toNat * 2 + r.busy.toNat ∧
    (regRead 1 r).toNat = r.linCur.toNat ∧ (regRead 2 r).toNat = r.linTgt.toNat ∧
    (regRead 3 r).toNat = r.linStart.toNat ∧ (regRead 4 r).toNat = r.duty.toNat ∧
    (regRead 4 r).toNat < 2 ^ b.pwmBits.width ∧
    (regRead 5 r).toNat = r.elapsed.toNat ∧
    (regRead 6 r).toNat = (if b.pwmBits = .ten then 1 else 0) ∧
    (regRead 7 r).toNat = b.tChange.val

/-- A Read changes no register and is never held: a cycle with a Read leaves what the same cycle without it leaves, and
returns the register as it stands after the cycle's other events; reading again returns the same
(20_memory.md §2, 43_control.md §R163). -/
def Obligations.ReadSeesTheCycleAndChangesNothing : Prop :=
  ∀ (c : ClockCycle) (a : RegAddr) (s : State), c.reset = false →
    ∃ t, runCycle { c with read := none } s = .next t ∧ t.readResult = none ∧
      runCycle { c with read := some a } s = .next { t with readResult := some (regRead a t.regs) } ∧
      runCycle { read := some a } { t with readResult := some (regRead a t.regs) } =
        .next { t with readResult := some (regRead a t.regs) }

/-- R36: a cycle with Reset always has a step and sets every register to its reset value; CONFIG and TCHANGE are
unchanged, and the words of the host are not consumed. -/
def Obligations.ResetSetsEveryRegister : Prop :=
  (∀ (s : State) (c : ClockCycle) (cs : List ClockCycle), s.inputs = c :: cs → c.reset = true →
    step s = .next {
      build := s.build
      regs := {
        linCur := 0, linTgt := 0, linStart := 0, duty := 0, busy := false, elapsed := 0
        err := false, errCode := 0, cnt := 0, dutyAct := 0 }
      words := s.words, inputs := cs, readResult := none }) ∧
  (∀ s : State, regRead 6 (resetEvent s).regs = regRead 6 s.regs ∧ regRead 7 (resetEvent s).regs = regRead 7 s.regs)

/-- R230: Reset always has a step, whatever the state and the rest of its cycle; it sets every register, keeps the build
and the presented word, and that word is accepted in the next cycle that presents it. -/
def Obligations.PresentedWordSurvivesReset : Prop :=
  (∀ (s : State) (c : ClockCycle), c.reset = true →
    runCycle c s = .next { State.resetOf s.build with words := s.words, inputs := s.inputs }) ∧
  (∀ (s : State) (c : ClockCycle) (cs : List ClockCycle) (w : Word) (ws : List Word),
    s.inputs = c :: cmdCycle :: cs → s.words = w :: ws → c.reset = true →
    Sys2Proof.core.run 2 s = accept w { State.resetOf s.build with words := ws, inputs := cs })

/-- R231's power-up: the block starts in the state of R230, with the spec's default build and pwm_out low for the whole
first period. The empty fields of the outside are the model's choice (log entries 5, 6 and 8). -/
def Obligations.PowerUpState : Prop :=
  (∀ a : RegAddr, a.toNat ≤ 5 → regRead a State.reset.regs = 0) ∧ State.reset.regs.cnt = 0 ∧
  State.reset.regs.dutyAct = 0 ∧ resetEvent State.reset = State.reset ∧ State.reset.build.pwmBits = .eight ∧
  State.reset.build.pwmInclusive = false ∧
  (∀ k, k < 256 → pwmOut (clocks k State.reset.regs) = false) ∧
  State.reset.words = [] ∧ State.reset.inputs = [] ∧ State.reset.readResult = none

/-- R30 and R31: no step changes the build, so CONFIG and TCHANGE read the same for ever: bit 0 of CONFIG is PWM10 and
its other bits 0, TCHANGE is T_CHANGE. -/
def Obligations.BuildNeverChanges : Prop :=
  (∀ s t : State, step s = .next t →
    t.build = s.build ∧ regRead 6 t.regs = regRead 6 s.regs ∧ regRead 7 t.regs = regRead 7 s.regs) ∧
  (∀ (b : Build) (r : Regs b), (regRead 6 r = 1 ↔ b.pwmBits = .ten) ∧ (regRead 6 r = 0 ↔ b.pwmBits = .eight) ∧
    (regRead 7 r).toNat = b.tChange.val)

/-- R8: exactly the legal parameter combinations can be built, and the bound keeps ELAPSED from wrapping. -/
def Obligations.OnlyLegalParametersBuild : Prop :=
  ∀ (n t : Nat) (i : Bool),
    ((∃ b, buildOf n t i = .ok b) ↔ (n = 8 ∨ n = 10) ∧ t ≤ 65484) ∧
    (∀ b, buildOf n t i = .ok b → b.pwmBits.width = n ∧ b.tChange.val = t ∧ b.pwmInclusive = i ∧
      b.tChange.val + 51 < 2 ^ 16) ∧
    (¬ ((n = 8 ∨ n = 10) ∧ t ≤ 65484) → buildOf n t i = .error .illegalBuild)

/-! The whole machine. -/

/-- A step runs the decoded instruction: when the next cycle only presents a word, BUSY = 0 and the word decodes to i,
the step is exec of i on the state with the cycle and the word consumed. Where the word comes from is the model's
choice (log entries 5, 6 and 11). -/
def Obligations.StepRunsTheDecodedInstruction : Prop :=
  (∀ (s : State) (cs : List ClockCycle) (w : Word) (ws : List Word) (i : Instr),
    s.inputs = cmdCycle :: cs → s.words = w :: ws → s.regs.busy = false → decode w = .ok i →
    step s = exec i { s with inputs := cs, words := ws, readResult := none }) ∧
  (∀ (s : State) (w : Word) (i : Instr), s.regs.busy = false → decode w = .ok i →
    step (s.withFetchWord 16 w.toNat) = exec i { s with readResult := none })

/-- R54: with BUSY = 0 a presented word is taken and performed in the same step; with BUSY = 1 it stays presented and a
cycle that only presents it changes no register; the hold ends only by the Tick that ends the ramp or by a Reset; words
are taken in the order presented. -/
def Obligations.CommandAcceptance : Prop :=
  ∀ (s t : State) (c : ClockCycle) (cs : List ClockCycle), s.inputs = c :: cs → step s = .next t →
    (∀ w ws, s.words = w :: ws → c = cmdCycle → s.regs.busy = false →
      accept w { s with inputs := cs, words := ws } = .next { t with readResult := s.readResult }) ∧
    (∀ w ws, s.words = w :: ws → c.reset = false → c.cmdValid = true → s.regs.busy = false → t.words = ws) ∧
    (s.regs.busy = true → t.words = s.words) ∧
    (s.regs.busy = true → c = cmdCycle → t = { s with inputs := cs, readResult := none }) ∧
    (s.regs.busy = true → t.regs.busy = false →
      c.reset = true ∨ (c.tick = true ∧ s.build.tChange.val + 50 < (s.regs.elapsed + 1).toNat)) ∧
    (t.words = s.words ∨ (∃ w, s.words = w :: t.words ∧ s.regs.busy = false ∧ c.cmdValid = true))

/-- R55: a Reset cancels the rest of its cycle; else PwmClk, Tick, Cmd (only if BUSY was 0 at the start of the cycle) and
Read act in this order, each on the result of those before; a Tick and a RAMP of one cycle never both act. -/
def Obligations.CycleAppliesItsEventsInOrder : Prop :=
  ∀ (c : ClockCycle) (s : State),
    (c.reset = true → runCycle c s =
      runCycle { reset := true, pwmClk := false, tick := false, cmdValid := false, read := none } s) ∧
    (c.reset = false → ∃ (r1 r2 : Regs s.build) (s3 : State),
      r1 = (if c.pwmClk then pwmClk s.regs else s.regs) ∧ r2 = (if c.tick then tick r1 else r1) ∧
      (∀ w ws, s.words = w :: ws → c.cmdValid = true → s.regs.busy = false →
        accept w { s with regs := r2, words := ws } = .next s3) ∧
      (c.cmdValid = false ∨ s.regs.busy = true ∨ s.words = [] → s3 = { s with regs := r2 }) ∧
      (s.regs.busy = false → r2 = r1) ∧
      runCycle c s = .next { s3 with readResult := c.read.map fun a => regRead a s3.regs })

/-- Every step answers a next state: no command, error or event stops the machine (60_exceptions.md §1). That a step with
no cycle left answers the same state is the model's choice (log entry 7), and so is that a cycle whose command is held
passes with a next state, where R54 gives the held command no step (log entry 9). -/
def Obligations.EveryStepHasANextState : Prop := ∀ s : State, ∃ t, step s = .next t

/-- The invariant holds after every step from every state that has it: DUTY, CNT and DUTY_ACT fit PWM_BITS, ERRCODE
records an error exactly while ERR = 1 and is never 3, a ramp's registers are its sample at an ELAPSED within bounds,
an idle LIN_CUR is LIN_TGT, and DUTY = 0 only while the registers stand as after Reset (10_state.md §2, §3, §5). -/
def Obligations.EveryStepKeepsTheInvariant : Prop := 
  ∀ s t : State, BlockInv s.regs → step s = .next t → BlockInv t.regs

/-- The invariant holds right after reset, in every build (10_state.md §7). -/
def Obligations.ResetSatisfiesTheInvariant : Prop := 
  (∀ b : Build, BlockInv (State.resetOf b).regs) ∧ BlockInv State.reset.regs

/-- R144: no command and no Tick can make DUTY 0; only Reset leaves DUTY = 0. -/
def Obligations.OnlyResetLeavesDutyZero : Prop :=
  (∀ (s t : State) (i : Instr), exec i s = .next t → t.regs.duty = 0 → s.regs.duty = 0) ∧
  (∀ (s t : State) (v : Lin) (u : Bool), s.regs.busy = false →
    (exec (.setd v u) s = .next t ∨ exec (.sett v u) s = .next t) → t.regs.duty ≠ 0) ∧
  (∀ (s t : State) (c : ClockCycle) (cs : List ClockCycle), s.inputs = c :: cs → step s = .next t → t.regs.duty = 0 →
    s.regs.duty = 0 ∨ c.reset = true) ∧
  (∀ s : State, (resetEvent s).regs.duty = 0)

/-- R21 to R25, the writers of LIN_CUR, LIN_TGT, LIN_START, DUTY and BUSY: through a cycle without Reset they change only
by an accepted RAMP, an accepted direct write (never LIN_START or BUSY, and LIN_CUR and LIN_TGT only with U) or a Tick
of a ramp (never LIN_START or LIN_TGT, and BUSY only at its end). -/
def Obligations.RegistersHaveOnlyTheirWriters : Prop :=
  ∀ (s t : State) (c : ClockCycle), c.reset = false → runCycle c s = .next t →
    (t.regs.linStart ≠ s.regs.linStart ∨ (s.regs.busy = false ∧ t.regs.busy = true) →
      c.cmdValid = true ∧ s.regs.busy = false ∧ ∃ w v, s.words.head? = some w ∧ decode w = .ok (.ramp v) ∧
        t.regs.linStart = s.regs.linCur ∧ t.regs.linTgt = v) ∧
    (t.regs.linTgt ≠ s.regs.linTgt → c.cmdValid = true ∧ s.regs.busy = false ∧ ∃ w, s.words.head? = some w ∧
      (decode w = .ok (.ramp t.regs.linTgt) ∨ decode w = .ok (.setd t.regs.linTgt true) ∨
        decode w = .ok (.sett t.regs.linTgt true))) ∧
    (t.regs.linCur ≠ s.regs.linCur ∨ t.regs.duty.toNat ≠ s.regs.duty.toNat →
      (s.regs.busy = true ∧ c.tick = true) ∨
      (c.cmdValid = true ∧ s.regs.busy = false ∧ ∃ w i, s.words.head? = some w ∧ decode w = .ok i ∧
        ((∃ v, i = .ramp v) ∨ ((∃ v u, i = .setd v u ∨ i = .sett v u) ∧
          (t.regs.linCur ≠ s.regs.linCur → i = .setd t.regs.linCur true ∨ i = .sett t.regs.linCur true))))) ∧
    (s.regs.busy = true → t.regs.busy = false → c.tick = true)

/-- R37: DUTY = out(STD, LIN_CUR) fails after Reset and can fail after a direct write with U = 0, and in the 8-bit build
after SETT with U = 1; it holds after every ramp sample and after SETD with U = 1. -/
def Obligations.DutyNeedNotFollowTheLinearLevel : Prop :=
  (∀ b : Build, (State.resetOf b).regs.duty = 0 ∧ (State.resetOf b).regs.linCur = 0 ∧ out b .std 0 = 1) ∧
  (∀ b : Build, (State.resetOf b).regs.duty ≠ out b .std (State.resetOf b).regs.linCur) ∧
  (∀ b : Build, ∃ (v : Lin) (t : State), exec (.setd v false) (State.resetOf b) = .next t ∧
    t.regs.duty ≠ out t.build .std t.regs.linCur) ∧
  (∀ b : Build, ∃ (v : Lin) (t : State), exec (.sett v false) (State.resetOf b) = .next t ∧
    t.regs.duty ≠ out t.build .std t.regs.linCur) ∧
  (∀ b : Build, b.pwmBits = .eight → ∃ (v : Lin) (t : State), exec (.sett v true) (State.resetOf b) = .next t ∧
    t.regs.duty ≠ out t.build .std t.regs.linCur) ∧
  (∀ (b : Build) (e : Nat) (r : Regs b), (sample e r).duty = out b .std (sample e r).linCur) ∧
  (∀ (s : State) (v : Lin), s.regs.busy = false → ∃ t, exec (.setd v true) s = .next t ∧
    t.regs.duty = out t.build .std t.regs.linCur)
end

