-- ==== Sys2Proof/Laws/Datapath.lean ====
section
/-! SUPPORT. The ranges of the datapath's functions, which let a proof drop the narrowing at the end of `out` and
`lerp`. -/

namespace Sys2Proof.Machine

open Sys2Proof

theorem lin_le (v : Lin) : v.toNat ≤ 1023 := by omega

theorem one_le_corr8 (x : Nat) : 1 ≤ corr8 x := by
  have : 1 ≤ (x * x * x + Config.c8) / 2 ^ Config.s8 :=
    (Nat.one_le_div_iff (by decide)).mpr (Nat.le_trans (by decide) (Nat.le_add_left _ _))
  exact Nat.le_min.mpr ⟨this, by decide⟩

theorem one_le_corr10 (x : Nat) : 1 ≤ corr10 x := by
  have : 1 ≤ (x * x * x + Config.c10) / 2 ^ Config.s10 :=
    (Nat.one_le_div_iff (by decide)).mpr (Nat.le_trans (by decide) (Nat.le_add_left _ _))
  exact Nat.le_min.mpr ⟨this, by decide⟩

theorem one_le_outNat (b : Build) (p : OutPath) (v : Lin) : 1 ≤ outNat b p v := by
  unfold outNat corr
  split
  · exact one_le_corr8 _
  · exact one_le_corr10 _

theorem outNat_le_pwmMax (b : Build) (p : OutPath) (v : Lin) : outNat b p v ≤ b.pwmMax := by
  rcases b with ⟨n, t, i⟩
  cases n
  · exact Nat.min_le_right _ _
  · exact Nat.min_le_right _ _

theorem pwmMax_add_one (b : Build) : b.pwmMax + 1 = 2 ^ b.pwmBits.width :=
  Nat.sub_add_cancel Nat.one_le_two_pow

/-- A value of PWM_BITS bits is at most PWM_MAX. -/
theorem pwmVal_le {b : Build} (x : PwmVal b) : x.toNat ≤ b.pwmMax := by
  have h := x.isLt
  rw [← pwmMax_add_one] at h
  exact Nat.le_of_lt_succ h

/-- The next value of PWM_BITS bits, below PWM_MAX. -/
theorem pwmVal_add_one {b : Build} {x : PwmVal b} (h : x.toNat ≠ b.pwmMax) : (x + 1).toNat = x.toNat + 1 := by
  have hl := pwmVal_le x
  have hw : x.toNat + 1 < 2 ^ b.pwmBits.width := by
    rw [← pwmMax_add_one]
    omega
  change (x + BitVec.ofNat _ 1).toNat = _
  rw [BitVec.toNat_add, BitVec.toNat_ofNat, Nat.add_mod_mod, Nat.mod_eq_of_lt hw]

@[simp] theorem out_toNat (b : Build) (p : OutPath) (v : Lin) : (out b p v).toNat = outNat b p v := by
  have h := outNat_le_pwmMax b p v
  have hm := pwmMax_add_one b
  exact Nat.mod_eq_of_lt (by omega)

theorem out_ne_zero (b : Build) (p : OutPath) (v : Lin) : out b p v ≠ 0 := by
  intro h
  have h1 := one_le_outNat b p v
  rw [← out_toNat, h] at h1
  simp at h1

theorem corr8_mono {x y : Nat} (h : x ≤ y) : corr8 x ≤ corr8 y := by
  unfold corr8
  gcongr

theorem corr10_mono {x y : Nat} (h : x ≤ y) : corr10 x ≤ corr10 y := by
  unfold corr10
  gcongr

/-! `out` in each build, with the parameters that do not matter gone. -/

theorem out_of_eight {b : Build} (h : b.pwmBits = .eight) (p : OutPath) (v : Lin) :
    (out b p v).toNat = corr8 (v.toNat * pathScale p / 1023) := by
  simp [outNat, corr, rescale, h]

theorem out_of_ten {b : Build} (h : b.pwmBits = .ten) (p : OutPath) (v : Lin) :
    (out b p v).toNat = corr10 v.toNat := by
  simp [outNat, corr, rescale, h]

/-! The interpolator as natural-number arithmetic, for each direction of the ramp. -/

theorem lerpInt_up {s t : Nat} (e : Nat) {T : Nat} (hT : 0 < T) (h : s ≤ t) :
    lerpInt s t e T = s + ((t - s) * min e T / T : Nat) := by
  have hp : ((t : Int) - s) * (min e T : Nat) = (((t - s) * min e T : Nat) : Int) := by
    push_cast [Nat.cast_sub h]
    rfl
  rw [lerpInt, if_neg (Nat.pos_iff_ne_zero.mp hT), hp]
  rfl

theorem lerpInt_down {s t : Nat} (e : Nat) {T : Nat} (hT : 0 < T) (h : t ≤ s) :
    lerpInt s t e T = s - ((s - t) * min e T / T : Nat) := by
  have hp : ((t : Int) - s) * (min e T : Nat) = -(((s - t) * min e T : Nat) : Int) := by
    push_cast [Nat.cast_sub h]
    ring
  rw [lerpInt, if_neg (Nat.pos_iff_ne_zero.mp hT), hp, Int.neg_tdiv]
  rfl

/-- The distance gone never exceeds the whole distance. -/
theorem lerp_quotient_le (d e T : Nat) : d * min e T / T ≤ d :=
  Nat.div_le_of_le_mul (by
    rw [Nat.mul_comm]
    exact Nat.mul_le_mul_right _ (Nat.min_le_right _ _))

theorem ofInt_natCast_toNat {n : Nat} (h : n < 1024) : (BitVec.ofInt 10 (n : Int)).toNat = n := by
  simp [BitVec.toNat_ofNat, Nat.mod_eq_of_lt h]

theorem lerp_of_zero (s t : Lin) (e : Nat) : lerp s t e 0 = t := by
  apply BitVec.eq_of_toNat_eq
  rw [lerp, lerpInt, if_pos rfl, ofInt_natCast_toNat t.isLt]

theorem lerp_toNat_up {s t : Lin} (e : Nat) {T : Nat} (hT : 0 < T) (h : s.toNat ≤ t.toNat) :
    (lerp s t e T).toNat = s.toNat + (t.toNat - s.toNat) * min e T / T := by
  have hq := lerp_quotient_le (t.toNat - s.toNat) e T
  have ht := t.isLt
  rw [lerp, lerpInt_up e hT h]
  generalize (t.toNat - s.toNat) * min e T / T = q at hq ⊢
  rw [← Nat.cast_add, ofInt_natCast_toNat (by omega)]

theorem lerp_toNat_down {s t : Lin} (e : Nat) {T : Nat} (hT : 0 < T) (h : t.toNat ≤ s.toNat) :
    (lerp s t e T).toNat = s.toNat - (s.toNat - t.toNat) * min e T / T := by
  have hq := lerp_quotient_le (s.toNat - t.toNat) e T
  have hs := s.isLt
  rw [lerp, lerpInt_down e hT h]
  generalize (s.toNat - t.toNat) * min e T / T = q at hq ⊢
  rw [← Nat.cast_sub (by omega), ofInt_natCast_toNat (by omega)]

end Sys2Proof.Machine
end

