-- ==== Sys2Proof/Laws/Decode.lean ====
section
/-! SUPPORT. The fields of a command word and the words of the instructions as numbers, so that a proof about an encoding
is arithmetic (30_encoding.md R71). -/

namespace Sys2Proof

theorem opField_toNat (w : Word) : (opField w).toNat = w.toNat / 4096 := by
  simp only [opField, BitVec.extractLsb'_toNat, Nat.shiftRight_eq_div_pow]
  omega

theorem zeroField_toNat (w : Word) : (zeroField w).toNat = w.toNat % 4096 := by
  simp [zeroField, BitVec.extractLsb'_toNat]

theorem rsvField_toNat (w : Word) : (rsvField w).toNat = w.toNat / 1024 % 4 := by
  simp [rsvField, BitVec.extractLsb'_toNat, Nat.shiftRight_eq_div_pow]

theorem valField_toNat (w : Word) : (valField w).toNat = w.toNat % 1024 := by
  simp [valField, BitVec.extractLsb'_toNat]

theorem rsvBit_eq (w : Word) : rsvBit w = decide (w.toNat / 2048 % 2 = 1) := by
  simp [rsvBit, BitVec.getLsbD, Nat.testBit_eq_decide_div_mod_eq]

theorem uField_eq (w : Word) : uField w = decide (w.toNat / 1024 % 2 = 1) := by
  simp [uField, BitVec.getLsbD, Nat.testBit_eq_decide_div_mod_eq]

/-- A field of six bits over VAL is a sum. -/
theorem headed_toNat (a : BitVec 6) (v : Lin) : (a ++ v).toNat = a.toNat * 1024 + v.toNat := by
  rw [BitVec.toNat_append, ← Nat.shiftLeft_add_eq_or_of_lt v.isLt, Nat.shiftLeft_eq]

/-- The number of an instruction's word. -/
def encodeNat : Instr → Nat
  | .nop => 0x0000
  | .ramp v => 0x1000 + v.toNat
  | .setd v u => 0x2000 + u.toNat * 1024 + v.toNat
  | .sett v u => 0x3000 + u.toNat * 1024 + v.toNat
  | .clrerr => 0x4000

theorem encode_toNat (i : Instr) : (encode i).toNat = encodeNat i := by
  cases i with
  | nop => rfl
  | clrerr => rfl
  | ramp v => exact headed_toNat 4#6 v
  | setd v u =>
    cases u
    · exact headed_toNat 8#6 v
    · exact headed_toNat 9#6 v
  | sett v u =>
    cases u
    · exact headed_toNat 12#6 v
    · exact headed_toNat 13#6 v

end Sys2Proof
end

