-- ==== Sys2Proof/Laws/State.lean ====
section
/-! SUPPORT. One lemma per field per update of the registers and of the state, so that no proof unfolds a record
update. -/

namespace Sys2Proof.Machine

open Sys2Proof

section
variable {b : Build} (r : Regs b)

section
variable (v : Lin)
@[simp] theorem Regs.setLinCur_linCur : (r.setLinCur v).linCur = v := rfl
@[simp] theorem Regs.setLinCur_linTgt : (r.setLinCur v).linTgt = r.linTgt := rfl
@[simp] theorem Regs.setLinCur_linStart : (r.setLinCur v).linStart = r.linStart := rfl
@[simp] theorem Regs.setLinCur_duty : (r.setLinCur v).duty = r.duty := rfl
@[simp] theorem Regs.setLinCur_busy : (r.setLinCur v).busy = r.busy := rfl
@[simp] theorem Regs.setLinCur_elapsed : (r.setLinCur v).elapsed = r.elapsed := rfl
@[simp] theorem Regs.setLinCur_err : (r.setLinCur v).err = r.err := rfl
@[simp] theorem Regs.setLinCur_errCode : (r.setLinCur v).errCode = r.errCode := rfl
@[simp] theorem Regs.setLinCur_cnt : (r.setLinCur v).cnt = r.cnt := rfl
@[simp] theorem Regs.setLinCur_dutyAct : (r.setLinCur v).dutyAct = r.dutyAct := rfl
end

section
variable (v : Lin)
@[simp] theorem Regs.setLinTgt_linCur : (r.setLinTgt v).linCur = r.linCur := rfl
@[simp] theorem Regs.setLinTgt_linTgt : (r.setLinTgt v).linTgt = v := rfl
@[simp] theorem Regs.setLinTgt_linStart : (r.setLinTgt v).linStart = r.linStart := rfl
@[simp] theorem Regs.setLinTgt_duty : (r.setLinTgt v).duty = r.duty := rfl
@[simp] theorem Regs.setLinTgt_busy : (r.setLinTgt v).busy = r.busy := rfl
@[simp] theorem Regs.setLinTgt_elapsed : (r.setLinTgt v).elapsed = r.elapsed := rfl
@[simp] theorem Regs.setLinTgt_err : (r.setLinTgt v).err = r.err := rfl
@[simp] theorem Regs.setLinTgt_errCode : (r.setLinTgt v).errCode = r.errCode := rfl
@[simp] theorem Regs.setLinTgt_cnt : (r.setLinTgt v).cnt = r.cnt := rfl
@[simp] theorem Regs.setLinTgt_dutyAct : (r.setLinTgt v).dutyAct = r.dutyAct := rfl
end

section
variable (v : Lin)
@[simp] theorem Regs.setLinStart_linCur : (r.setLinStart v).linCur = r.linCur := rfl
@[simp] theorem Regs.setLinStart_linTgt : (r.setLinStart v).linTgt = r.linTgt := rfl
@[simp] theorem Regs.setLinStart_linStart : (r.setLinStart v).linStart = v := rfl
@[simp] theorem Regs.setLinStart_duty : (r.setLinStart v).duty = r.duty := rfl
@[simp] theorem Regs.setLinStart_busy : (r.setLinStart v).busy = r.busy := rfl
@[simp] theorem Regs.setLinStart_elapsed : (r.setLinStart v).elapsed = r.elapsed := rfl
@[simp] theorem Regs.setLinStart_err : (r.setLinStart v).err = r.err := rfl
@[simp] theorem Regs.setLinStart_errCode : (r.setLinStart v).errCode = r.errCode := rfl
@[simp] theorem Regs.setLinStart_cnt : (r.setLinStart v).cnt = r.cnt := rfl
@[simp] theorem Regs.setLinStart_dutyAct : (r.setLinStart v).dutyAct = r.dutyAct := rfl
end

section
variable (v : PwmVal b)
@[simp] theorem Regs.setDuty_linCur : (r.setDuty v).linCur = r.linCur := rfl
@[simp] theorem Regs.setDuty_linTgt : (r.setDuty v).linTgt = r.linTgt := rfl
@[simp] theorem Regs.setDuty_linStart : (r.setDuty v).linStart = r.linStart := rfl
@[simp] theorem Regs.setDuty_duty : (r.setDuty v).duty = v := rfl
@[simp] theorem Regs.setDuty_busy : (r.setDuty v).busy = r.busy := rfl
@[simp] theorem Regs.setDuty_elapsed : (r.setDuty v).elapsed = r.elapsed := rfl
@[simp] theorem Regs.setDuty_err : (r.setDuty v).err = r.err := rfl
@[simp] theorem Regs.setDuty_errCode : (r.setDuty v).errCode = r.errCode := rfl
@[simp] theorem Regs.setDuty_cnt : (r.setDuty v).cnt = r.cnt := rfl
@[simp] theorem Regs.setDuty_dutyAct : (r.setDuty v).dutyAct = r.dutyAct := rfl
end

section
variable (v : Bool)
@[simp] theorem Regs.setBusy_linCur : (r.setBusy v).linCur = r.linCur := rfl
@[simp] theorem Regs.setBusy_linTgt : (r.setBusy v).linTgt = r.linTgt := rfl
@[simp] theorem Regs.setBusy_linStart : (r.setBusy v).linStart = r.linStart := rfl
@[simp] theorem Regs.setBusy_duty : (r.setBusy v).duty = r.duty := rfl
@[simp] theorem Regs.setBusy_busy : (r.setBusy v).busy = v := rfl
@[simp] theorem Regs.setBusy_elapsed : (r.setBusy v).elapsed = r.elapsed := rfl
@[simp] theorem Regs.setBusy_err : (r.setBusy v).err = r.err := rfl
@[simp] theorem Regs.setBusy_errCode : (r.setBusy v).errCode = r.errCode := rfl
@[simp] theorem Regs.setBusy_cnt : (r.setBusy v).cnt = r.cnt := rfl
@[simp] theorem Regs.setBusy_dutyAct : (r.setBusy v).dutyAct = r.dutyAct := rfl
end

section
variable (v : BitVec 16)
@[simp] theorem Regs.setElapsed_linCur : (r.setElapsed v).linCur = r.linCur := rfl
@[simp] theorem Regs.setElapsed_linTgt : (r.setElapsed v).linTgt = r.linTgt := rfl
@[simp] theorem Regs.setElapsed_linStart : (r.setElapsed v).linStart = r.linStart := rfl
@[simp] theorem Regs.setElapsed_duty : (r.setElapsed v).duty = r.duty := rfl
@[simp] theorem Regs.setElapsed_busy : (r.setElapsed v).busy = r.busy := rfl
@[simp] theorem Regs.setElapsed_elapsed : (r.setElapsed v).elapsed = v := rfl
@[simp] theorem Regs.setElapsed_err : (r.setElapsed v).err = r.err := rfl
@[simp] theorem Regs.setElapsed_errCode : (r.setElapsed v).errCode = r.errCode := rfl
@[simp] theorem Regs.setElapsed_cnt : (r.setElapsed v).cnt = r.cnt := rfl
@[simp] theorem Regs.setElapsed_dutyAct : (r.setElapsed v).dutyAct = r.dutyAct := rfl
end

section
variable (v : Bool)
@[simp] theorem Regs.setErr_linCur : (r.setErr v).linCur = r.linCur := rfl
@[simp] theorem Regs.setErr_linTgt : (r.setErr v).linTgt = r.linTgt := rfl
@[simp] theorem Regs.setErr_linStart : (r.setErr v).linStart = r.linStart := rfl
@[simp] theorem Regs.setErr_duty : (r.setErr v).duty = r.duty := rfl
@[simp] theorem Regs.setErr_busy : (r.setErr v).busy = r.busy := rfl
@[simp] theorem Regs.setErr_elapsed : (r.setErr v).elapsed = r.elapsed := rfl
@[simp] theorem Regs.setErr_err : (r.setErr v).err = v := rfl
@[simp] theorem Regs.setErr_errCode : (r.setErr v).errCode = r.errCode := rfl
@[simp] theorem Regs.setErr_cnt : (r.setErr v).cnt = r.cnt := rfl
@[simp] theorem Regs.setErr_dutyAct : (r.setErr v).dutyAct = r.dutyAct := rfl
end

section
variable (v : BitVec 2)
@[simp] theorem Regs.setErrCode_linCur : (r.setErrCode v).linCur = r.linCur := rfl
@[simp] theorem Regs.setErrCode_linTgt : (r.setErrCode v).linTgt = r.linTgt := rfl
@[simp] theorem Regs.setErrCode_linStart : (r.setErrCode v).linStart = r.linStart := rfl
@[simp] theorem Regs.setErrCode_duty : (r.setErrCode v).duty = r.duty := rfl
@[simp] theorem Regs.setErrCode_busy : (r.setErrCode v).busy = r.busy := rfl
@[simp] theorem Regs.setErrCode_elapsed : (r.setErrCode v).elapsed = r.elapsed := rfl
@[simp] theorem Regs.setErrCode_err : (r.setErrCode v).err = r.err := rfl
@[simp] theorem Regs.setErrCode_errCode : (r.setErrCode v).errCode = v := rfl
@[simp] theorem Regs.setErrCode_cnt : (r.setErrCode v).cnt = r.cnt := rfl
@[simp] theorem Regs.setErrCode_dutyAct : (r.setErrCode v).dutyAct = r.dutyAct := rfl
end

section
variable (v : PwmVal b)
@[simp] theorem Regs.setCnt_linCur : (r.setCnt v).linCur = r.linCur := rfl
@[simp] theorem Regs.setCnt_linTgt : (r.setCnt v).linTgt = r.linTgt := rfl
@[simp] theorem Regs.setCnt_linStart : (r.setCnt v).linStart = r.linStart := rfl
@[simp] theorem Regs.setCnt_duty : (r.setCnt v).duty = r.duty := rfl
@[simp] theorem Regs.setCnt_busy : (r.setCnt v).busy = r.busy := rfl
@[simp] theorem Regs.setCnt_elapsed : (r.setCnt v).elapsed = r.elapsed := rfl
@[simp] theorem Regs.setCnt_err : (r.setCnt v).err = r.err := rfl
@[simp] theorem Regs.setCnt_errCode : (r.setCnt v).errCode = r.errCode := rfl
@[simp] theorem Regs.setCnt_cnt : (r.setCnt v).cnt = v := rfl
@[simp] theorem Regs.setCnt_dutyAct : (r.setCnt v).dutyAct = r.dutyAct := rfl
end

section
variable (v : PwmVal b)
@[simp] theorem Regs.setDutyAct_linCur : (r.setDutyAct v).linCur = r.linCur := rfl
@[simp] theorem Regs.setDutyAct_linTgt : (r.setDutyAct v).linTgt = r.linTgt := rfl
@[simp] theorem Regs.setDutyAct_linStart : (r.setDutyAct v).linStart = r.linStart := rfl
@[simp] theorem Regs.setDutyAct_duty : (r.setDutyAct v).duty = r.duty := rfl
@[simp] theorem Regs.setDutyAct_busy : (r.setDutyAct v).busy = r.busy := rfl
@[simp] theorem Regs.setDutyAct_elapsed : (r.setDutyAct v).elapsed = r.elapsed := rfl
@[simp] theorem Regs.setDutyAct_err : (r.setDutyAct v).err = r.err := rfl
@[simp] theorem Regs.setDutyAct_errCode : (r.setDutyAct v).errCode = r.errCode := rfl
@[simp] theorem Regs.setDutyAct_cnt : (r.setDutyAct v).cnt = r.cnt := rfl
@[simp] theorem Regs.setDutyAct_dutyAct : (r.setDutyAct v).dutyAct = v := rfl
end

end

section
variable (s : State) (v : Regs s.build)
@[simp] theorem State.setRegs_build : (s.setRegs v).build = s.build := rfl
@[simp] theorem State.setRegs_regs : (s.setRegs v).regs = v := rfl
@[simp] theorem State.setRegs_words : (s.setRegs v).words = s.words := rfl
@[simp] theorem State.setRegs_inputs : (s.setRegs v).inputs = s.inputs := rfl
@[simp] theorem State.setRegs_readResult : (s.setRegs v).readResult = s.readResult := rfl
end

section
variable (s : State) (v : List Word)
@[simp] theorem State.setWords_build : (s.setWords v).build = s.build := rfl
@[simp] theorem State.setWords_regs : (s.setWords v).regs = s.regs := rfl
@[simp] theorem State.setWords_words : (s.setWords v).words = v := rfl
@[simp] theorem State.setWords_inputs : (s.setWords v).inputs = s.inputs := rfl
@[simp] theorem State.setWords_readResult : (s.setWords v).readResult = s.readResult := rfl
end

section
variable (s : State) (v : List ClockCycle)
@[simp] theorem State.setInputs_build : (s.setInputs v).build = s.build := rfl
@[simp] theorem State.setInputs_regs : (s.setInputs v).regs = s.regs := rfl
@[simp] theorem State.setInputs_words : (s.setInputs v).words = s.words := rfl
@[simp] theorem State.setInputs_inputs : (s.setInputs v).inputs = v := rfl
@[simp] theorem State.setInputs_readResult : (s.setInputs v).readResult = s.readResult := rfl
end

section
variable (s : State) (v : Option Word)
@[simp] theorem State.setReadResult_build : (s.setReadResult v).build = s.build := rfl
@[simp] theorem State.setReadResult_regs : (s.setReadResult v).regs = s.regs := rfl
@[simp] theorem State.setReadResult_words : (s.setReadResult v).words = s.words := rfl
@[simp] theorem State.setReadResult_inputs : (s.setReadResult v).inputs = s.inputs := rfl
@[simp] theorem State.setReadResult_readResult : (s.setReadResult v).readResult = v := rfl
end

section
variable (b : Build)
@[simp] theorem Regs.reset_linCur : (Regs.reset b).linCur = 0 := rfl
@[simp] theorem Regs.reset_linTgt : (Regs.reset b).linTgt = 0 := rfl
@[simp] theorem Regs.reset_linStart : (Regs.reset b).linStart = 0 := rfl
@[simp] theorem Regs.reset_duty : (Regs.reset b).duty = 0 := rfl
@[simp] theorem Regs.reset_busy : (Regs.reset b).busy = false := rfl
@[simp] theorem Regs.reset_elapsed : (Regs.reset b).elapsed = 0 := rfl
@[simp] theorem Regs.reset_err : (Regs.reset b).err = false := rfl
@[simp] theorem Regs.reset_errCode : (Regs.reset b).errCode = 0 := rfl
@[simp] theorem Regs.reset_cnt : (Regs.reset b).cnt = 0 := rfl
@[simp] theorem Regs.reset_dutyAct : (Regs.reset b).dutyAct = 0 := rfl
@[simp] theorem State.resetOf_build : (State.resetOf b).build = b := rfl
@[simp] theorem State.resetOf_regs : (State.resetOf b).regs = Regs.reset b := rfl
@[simp] theorem State.resetOf_words : (State.resetOf b).words = [] := rfl
@[simp] theorem State.resetOf_inputs : (State.resetOf b).inputs = [] := rfl
@[simp] theorem State.resetOf_readResult : (State.resetOf b).readResult = none := rfl
end

end Sys2Proof.Machine
end

