-- ==== Sys2Proof/Laws/Ops.lean ====
section
/-! SUPPORT. One lemma per shared operation that says all it can do, as the fields it writes. -/

namespace Sys2Proof.Machine

open Sys2Proof

section
variable {s : State}

theorem whenIdle_of_idle (h : s.regs.busy = false) (op : Regs s.build → Regs s.build) :
    whenIdle s op = .next (s.setRegs (op s.regs)) := by
  simp [whenIdle, h]

theorem whenIdle_of_busy (h : s.regs.busy = true) (op : Regs s.build → Regs s.build) : whenIdle s op = .next s := by
  simp [whenIdle, h]

theorem accept_of_busy (h : s.regs.busy = true) (w : Word) : accept w s = .next s := by
  simp [accept, h]

theorem accept_of_ok {w : Word} {i : Instr} (h : s.regs.busy = false) (hw : decode w = .ok i) :
    accept w s = exec i s := by
  simp [accept, h, hw]

theorem accept_of_error {w : Word} {c : CmdError} (h : s.regs.busy = false) (hw : decode w = .error c) :
    accept w s = .next (s.setRegs (raiseCmdError c s.regs)) := by
  simp [accept, h, hw]

theorem exec_of_busy (h : s.regs.busy = true) (i : Instr) : exec i s = .next s := by
  cases i
  · exact whenIdle_of_busy h (fun r => r)
  all_goals exact whenIdle_of_busy h _

end

section
variable {b : Build} (r : Regs b)

theorem sample_eq (e : Nat) :
    sample e r = { r with
      linCur := lerp r.linStart r.linTgt e b.tChange.val
      duty := out b .std (lerp r.linStart r.linTgt e b.tChange.val) } := rfl

theorem startRamp_eq (v : Lin) :
    startRamp v r = { r with
      linStart := r.linCur, linTgt := v, elapsed := 0, busy := true
      linCur := lerp r.linCur v 0 b.tChange.val
      duty := out b .std (lerp r.linCur v 0 b.tChange.val) } := rfl

theorem direct_eq (p : OutPath) (v : Lin) (u : Bool) :
    direct p v u r = { r with
      duty := out b p v
      linCur := if u then v else r.linCur
      linTgt := if u then v else r.linTgt } := by
  cases u <;> rfl

@[simp] theorem direct_duty (p : OutPath) (v : Lin) (u : Bool) : (direct p v u r).duty = out b p v := by
  rw [direct_eq]

@[simp] theorem sample_duty (e : Nat) : (sample e r).duty = out b .std (sample e r).linCur := rfl

theorem raiseCmdError_eq (c : CmdError) :
    raiseCmdError c r = { r with err := true, errCode := if r.err then r.errCode else errorCode c } := by
  unfold raiseCmdError
  split <;> rfl

theorem clearErrorRecord_eq : clearErrorRecord r = { r with err := false, errCode := 0 } := rfl

/-- Everything a Tick can do. -/
theorem tick_cases :
    (r.busy = false ∧ tick r = r) ∨
    (r.busy = true ∧ b.tChange.val + Config.holdMs < (r.elapsed + 1).toNat ∧
      tick r = { r with elapsed := r.elapsed + 1, busy := false }) ∨
    (r.busy = true ∧ (r.elapsed + 1).toNat ≤ b.tChange.val + Config.holdMs ∧
      tick r = { r with
        elapsed := r.elapsed + 1
        linCur := lerp r.linStart r.linTgt (r.elapsed + 1).toNat b.tChange.val
        duty := out b .std (lerp r.linStart r.linTgt (r.elapsed + 1).toNat b.tChange.val) }) := by
  rcases Bool.eq_false_or_eq_true r.busy with h | h
  · rcases Nat.lt_or_ge (b.tChange.val + Config.holdMs) (r.elapsed + 1).toNat with he | he
    · refine .inr (.inl ⟨h, he, ?_⟩)
      rw [tick, if_pos h]
      exact if_pos he
    · refine .inr (.inr ⟨h, he, ?_⟩)
      rw [tick, if_pos h]
      exact if_neg (Nat.not_lt.mpr he)
  · exact .inl ⟨h, by rw [tick, if_neg (by simp [h])]⟩

variable {r}

theorem tick_of_idle (h : r.busy = false) : tick r = r := by
  rcases tick_cases r with ⟨_, e⟩ | ⟨hb, _⟩ | ⟨hb, _⟩
  · exact e
  all_goals exact absurd hb (by simp [h])

theorem tick_of_last (h : r.busy = true) (he : b.tChange.val + Config.holdMs < (r.elapsed + 1).toNat) :
    tick r = { r with elapsed := r.elapsed + 1, busy := false } := by
  rcases tick_cases r with ⟨hb, _⟩ | ⟨_, _, e⟩ | ⟨_, hn, _⟩
  · exact absurd hb (by simp [h])
  · exact e
  · exact absurd he (Nat.not_lt.mpr hn)

theorem tick_of_ramping (h : r.busy = true) (he : (r.elapsed + 1).toNat ≤ b.tChange.val + Config.holdMs) :
    tick r = { r with
      elapsed := r.elapsed + 1
      linCur := lerp r.linStart r.linTgt (r.elapsed + 1).toNat b.tChange.val
      duty := out b .std (lerp r.linStart r.linTgt (r.elapsed + 1).toNat b.tChange.val) } := by
  rcases tick_cases r with ⟨hb, _⟩ | ⟨_, hn, _⟩ | ⟨_, _, e⟩
  · exact absurd hb (by simp [h])
  · exact absurd he (Nat.not_le.mpr hn)
  · exact e

variable (r)

/-- Everything a PwmClk can do. -/
theorem pwmClk_cases :
    (r.cnt.toNat = b.pwmMax ∧ pwmClk r = { r with cnt := 0, dutyAct := r.duty }) ∨
    (r.cnt.toNat ≠ b.pwmMax ∧ pwmClk r = { r with cnt := r.cnt + 1 }) := by
  by_cases h : r.cnt.toNat = b.pwmMax
  · exact .inl ⟨h, by rw [pwmClk, if_pos h]; rfl⟩
  · exact .inr ⟨h, by rw [pwmClk, if_neg h]; rfl⟩

end

end Sys2Proof.Machine
end

