-- ==== Sys2Proof/Laws/PerInstr.lean ====
section
/-! SUPPORT. The families of statements made per instruction: `RowMatch`, that an instruction's word selects the row
the opcode map gives it and keeps the must-be-zero bits clear (30_encoding.md R71, R74). -/

namespace Sys2Proof.Laws

open Sys2Proof

/-- The word of i selects i's row, and is well-formed. -/
def RowMatch.Statement (i : Instr) : Prop := i.row.selectedBy (encode i) = true ∧ wordWellFormed (encode i) = true

theorem RowMatch.nop : RowMatch.Statement .nop := ⟨by decide, by decide⟩

theorem RowMatch.clrerr : RowMatch.Statement .clrerr := ⟨by decide, by decide⟩

/-- Format R leaves bits 15..10 to OP and RSV. -/
theorem encodeR_and_mask (v : Lin) : encodeR 0x1 v &&& 0xFC00 = 0x1000 := by
  apply BitVec.eq_of_getLsbD_eq
  intro i hi
  simp only [encodeR, BitVec.getLsbD_and, BitVec.getLsbD_append]
  interval_cases i <;> first | rfl | exact Bool.and_false _

theorem encodeD_and_mask_setd (u : Bool) (v : Lin) : encodeD 0x2 u v &&& 0xF800 = 0x2000 := by
  apply BitVec.eq_of_getLsbD_eq
  intro i hi
  simp only [encodeD, BitVec.getLsbD_and, BitVec.getLsbD_append]
  interval_cases i <;> first | rfl | exact Bool.and_false _

theorem encodeD_and_mask_sett (u : Bool) (v : Lin) : encodeD 0x3 u v &&& 0xF800 = 0x3000 := by
  apply BitVec.eq_of_getLsbD_eq
  intro i hi
  simp only [encodeD, BitVec.getLsbD_and, BitVec.getLsbD_append]
  interval_cases i <;> first | rfl | exact Bool.and_false _

theorem RowMatch.ramp (v : Lin) : RowMatch.Statement (.ramp v) := by
  have h : OpRow.ramp.selectedBy (encode (.ramp v)) = true := beq_iff_eq.mpr (encodeR_and_mask v)
  exact ⟨h, List.any_eq_true.mpr ⟨_, by simp [OpRow.table], h⟩⟩

theorem RowMatch.setd (v : Lin) (u : Bool) : RowMatch.Statement (.setd v u) := by
  have h : OpRow.setd.selectedBy (encode (.setd v u)) = true := beq_iff_eq.mpr (encodeD_and_mask_setd u v)
  exact ⟨h, List.any_eq_true.mpr ⟨_, by simp [OpRow.table], h⟩⟩

theorem RowMatch.sett (v : Lin) (u : Bool) : RowMatch.Statement (.sett v u) := by
  have h : OpRow.sett.selectedBy (encode (.sett v u)) = true := beq_iff_eq.mpr (encodeD_and_mask_sett u v)
  exact ⟨h, List.any_eq_true.mpr ⟨_, by simp [OpRow.table], h⟩⟩

end Sys2Proof.Laws
end

