-- ==== Sys2Proof/Laws/Step.lean ====
section
/-! SUPPORT. What a command, a word and a cycle can do, said once as the registers they leave: proofs about `step` start
from `step_of_nil` and `step_of_cons` and split `cycleRegs`, without unfolding the phases again. -/

namespace Sys2Proof.Machine

open Sys2Proof

section
variable {b : Build}

/-- The registers an instruction leaves when it is accepted. -/
def execRegs (i : Instr) (r : Regs b) : Regs b :=
  match i with
  | .nop => r
  | .ramp v => startRamp v r
  | .setd v u => direct .std v u r
  | .sett v u => direct .track v u r
  | .clrerr => clearErrorRecord r

/-- The registers a presented word leaves. -/
def acceptRegs (w : Word) (r : Regs b) : Regs b :=
  if r.busy then r
  else
    match decode w with
    | .ok i => execRegs i r
    | .error c => raiseCmdError c r

/-- The registers a cycle's command leaves: the first word is taken only if BUSY was 0 at the start of the cycle. -/
def cmdRegs (c : ClockCycle) (busyAtStart : Bool) (ws : List Word) (r : Regs b) : Regs b :=
  if c.cmdValid && !busyAtStart then
    match ws with
    | [] => r
    | w :: _ => acceptRegs w r
  else r

/-- The registers a cycle leaves. -/
def cycleRegs (c : ClockCycle) (ws : List Word) (r : Regs b) : Regs b :=
  if c.reset then Regs.reset b else cmdRegs c r.busy ws (tickPhase c (clkPhase c r))

end

/-- The words a cycle leaves the host. -/
def cycleWords (c : ClockCycle) (busyAtStart : Bool) (ws : List Word) : List Word :=
  if c.reset then ws else if c.cmdValid && !busyAtStart then ws.tail else ws

/-- The state a cycle leaves. -/
def cycleState (c : ClockCycle) (s : State) : State :=
  { s with
    regs := cycleRegs c s.words s.regs
    words := cycleWords c s.regs.busy s.words
    readResult := if c.reset then none else c.read.map (regRead · (cycleRegs c s.words s.regs)) }

theorem exec_of_idle {s : State} (h : s.regs.busy = false) (i : Instr) :
    exec i s = .next (s.setRegs (execRegs i s.regs)) := by
  cases i
  · exact whenIdle_of_idle h (fun r => r)
  all_goals exact whenIdle_of_idle h _

theorem accept_eq (w : Word) (s : State) : accept w s = .next (s.setRegs (acceptRegs w s.regs)) := by
  cases h : s.regs.busy with
  | true =>
    rw [accept_of_busy h, acceptRegs, if_pos h]
    rfl
  | false =>
    rw [acceptRegs, if_neg (by simp [h])]
    cases hw : decode w with
    | ok i => rw [accept_of_ok h hw, exec_of_idle h]
    | error c => rw [accept_of_error h hw]

theorem cmdPhase_eq (c : ClockCycle) (busyAtStart : Bool) (s : State) :
    cmdPhase c busyAtStart s = .next ((s.setRegs (cmdRegs c busyAtStart s.words s.regs)).setWords
      (if c.cmdValid && !busyAtStart then s.words.tail else s.words)) := by
  rcases s with ⟨b, r, ws, is, q⟩
  unfold cmdPhase cmdRegs takeWord
  split
  · cases ws with
    | nil => rfl
    | cons w ws => exact accept_eq w _
  · rfl

theorem runCycle_eq (c : ClockCycle) (s : State) : runCycle c s = .next (cycleState c s) := by
  unfold runCycle cycleState cycleRegs cycleWords
  cases c.reset
  · simp only [Bool.false_eq_true, if_false, cmdPhase_eq]
    rfl
  · rfl

theorem step_of_nil {s : State} (h : s.inputs = []) : step s = .next s := by
  simp [step, nextCycle, h]

theorem step_of_cons {s : State} {c : ClockCycle} {cs : List ClockCycle} (h : s.inputs = c :: cs) :
    step s = .next (cycleState c (s.setInputs cs)) := by
  simp [step, nextCycle, h, runCycle_eq]

/-! What each operation can do. -/

section
variable {b : Build} (r : Regs b)

theorem acceptRegs_of_busy (w : Word) (h : r.busy = true) : acceptRegs w r = r := by simp [acceptRegs, h]

/-- Everything a presented word can do. -/
theorem acceptRegs_cases (w : Word) :
    (r.busy = true ∧ acceptRegs w r = r) ∨
    (r.busy = false ∧ ∃ i, decode w = .ok i ∧ acceptRegs w r = execRegs i r) ∨
    (r.busy = false ∧ ∃ c, decode w = .error c ∧ acceptRegs w r = raiseCmdError c r) := by
  cases h : r.busy with
  | true => exact .inl ⟨rfl, acceptRegs_of_busy r w h⟩
  | false =>
    cases hw : decode w with
    | ok i => exact .inr (.inl ⟨rfl, i, rfl, by simp [acceptRegs, h, hw]⟩)
    | error c => exact .inr (.inr ⟨rfl, c, rfl, by simp [acceptRegs, h, hw]⟩)

/-- Everything the command of a cycle can do. -/
theorem cmdRegs_cases (c : ClockCycle) (busyAtStart : Bool) (ws : List Word) :
    ((c.cmdValid = false ∨ busyAtStart = true ∨ ws = []) ∧ cmdRegs c busyAtStart ws r = r) ∨
    (c.cmdValid = true ∧ busyAtStart = false ∧
      ∃ w ws', ws = w :: ws' ∧ cmdRegs c busyAtStart ws r = acceptRegs w r) := by
  unfold cmdRegs
  cases c.cmdValid <;> cases busyAtStart <;> cases ws <;> simp

theorem cmdRegs_of_busy (c : ClockCycle) (ws : List Word) : cmdRegs c true ws r = r := by simp [cmdRegs]

theorem cycleRegs_of_reset {c : ClockCycle} (h : c.reset = true) (ws : List Word) :
    cycleRegs c ws r = Regs.reset b := by simp [cycleRegs, h]

theorem tickPhase_of_idle (c : ClockCycle) (h : r.busy = false) : tickPhase c r = r := by
  unfold tickPhase
  split
  · exact tick_of_idle h
  · rfl

@[simp] theorem execRegs_cnt (i : Instr) : (execRegs i r).cnt = r.cnt := by
  cases i <;> simp [execRegs, startRamp_eq, direct_eq, clearErrorRecord_eq]
@[simp] theorem execRegs_dutyAct (i : Instr) : (execRegs i r).dutyAct = r.dutyAct := by
  cases i <;> simp [execRegs, startRamp_eq, direct_eq, clearErrorRecord_eq]
@[simp] theorem acceptRegs_cnt (w : Word) : (acceptRegs w r).cnt = r.cnt := by
  rcases acceptRegs_cases r w with ⟨_, h⟩ | ⟨_, i, _, h⟩ | ⟨_, c, _, h⟩ <;> simp [h, raiseCmdError_eq]
@[simp] theorem acceptRegs_dutyAct (w : Word) : (acceptRegs w r).dutyAct = r.dutyAct := by
  rcases acceptRegs_cases r w with ⟨_, h⟩ | ⟨_, i, _, h⟩ | ⟨_, c, _, h⟩ <;> simp [h, raiseCmdError_eq]
@[simp] theorem cmdRegs_cnt (c : ClockCycle) (q : Bool) (ws : List Word) : (cmdRegs c q ws r).cnt = r.cnt := by
  rcases cmdRegs_cases r c q ws with ⟨_, h⟩ | ⟨_, _, w, ws', _, h⟩ <;> simp [h]
@[simp] theorem cmdRegs_dutyAct (c : ClockCycle) (q : Bool) (ws : List Word) : (cmdRegs c q ws r).dutyAct = r.dutyAct := by
  rcases cmdRegs_cases r c q ws with ⟨_, h⟩ | ⟨_, _, w, ws', _, h⟩ <;> simp [h]

@[simp] theorem tick_linTgt : (tick r).linTgt = r.linTgt := by
  rcases tick_cases r with ⟨_, h⟩ | ⟨_, _, h⟩ | ⟨_, _, h⟩ <;> simp [h]
@[simp] theorem tick_linStart : (tick r).linStart = r.linStart := by
  rcases tick_cases r with ⟨_, h⟩ | ⟨_, _, h⟩ | ⟨_, _, h⟩ <;> simp [h]
@[simp] theorem tick_err : (tick r).err = r.err := by
  rcases tick_cases r with ⟨_, h⟩ | ⟨_, _, h⟩ | ⟨_, _, h⟩ <;> simp [h]
@[simp] theorem tick_errCode : (tick r).errCode = r.errCode := by
  rcases tick_cases r with ⟨_, h⟩ | ⟨_, _, h⟩ | ⟨_, _, h⟩ <;> simp [h]
@[simp] theorem tick_cnt : (tick r).cnt = r.cnt := by
  rcases tick_cases r with ⟨_, h⟩ | ⟨_, _, h⟩ | ⟨_, _, h⟩ <;> simp [h]
@[simp] theorem tick_dutyAct : (tick r).dutyAct = r.dutyAct := by
  rcases tick_cases r with ⟨_, h⟩ | ⟨_, _, h⟩ | ⟨_, _, h⟩ <;> simp [h]

@[simp] theorem pwmClk_linCur : (pwmClk r).linCur = r.linCur := by
  rcases pwmClk_cases r with ⟨_, h⟩ | ⟨_, h⟩ <;> simp [h]
@[simp] theorem pwmClk_linTgt : (pwmClk r).linTgt = r.linTgt := by
  rcases pwmClk_cases r with ⟨_, h⟩ | ⟨_, h⟩ <;> simp [h]
@[simp] theorem pwmClk_linStart : (pwmClk r).linStart = r.linStart := by
  rcases pwmClk_cases r with ⟨_, h⟩ | ⟨_, h⟩ <;> simp [h]
@[simp] theorem pwmClk_duty : (pwmClk r).duty = r.duty := by
  rcases pwmClk_cases r with ⟨_, h⟩ | ⟨_, h⟩ <;> simp [h]
@[simp] theorem pwmClk_busy : (pwmClk r).busy = r.busy := by
  rcases pwmClk_cases r with ⟨_, h⟩ | ⟨_, h⟩ <;> simp [h]
@[simp] theorem pwmClk_elapsed : (pwmClk r).elapsed = r.elapsed := by
  rcases pwmClk_cases r with ⟨_, h⟩ | ⟨_, h⟩ <;> simp [h]
@[simp] theorem pwmClk_err : (pwmClk r).err = r.err := by
  rcases pwmClk_cases r with ⟨_, h⟩ | ⟨_, h⟩ <;> simp [h]
@[simp] theorem pwmClk_errCode : (pwmClk r).errCode = r.errCode := by
  rcases pwmClk_cases r with ⟨_, h⟩ | ⟨_, h⟩ <;> simp [h]

variable (c : ClockCycle)

@[simp] theorem clkPhase_linCur : (clkPhase c r).linCur = r.linCur := by
  unfold clkPhase
  split <;> simp
@[simp] theorem clkPhase_linTgt : (clkPhase c r).linTgt = r.linTgt := by
  unfold clkPhase
  split <;> simp
@[simp] theorem clkPhase_linStart : (clkPhase c r).linStart = r.linStart := by
  unfold clkPhase
  split <;> simp
@[simp] theorem clkPhase_duty : (clkPhase c r).duty = r.duty := by
  unfold clkPhase
  split <;> simp
@[simp] theorem clkPhase_busy : (clkPhase c r).busy = r.busy := by
  unfold clkPhase
  split <;> simp
@[simp] theorem clkPhase_elapsed : (clkPhase c r).elapsed = r.elapsed := by
  unfold clkPhase
  split <;> simp
@[simp] theorem clkPhase_err : (clkPhase c r).err = r.err := by
  unfold clkPhase
  split <;> simp
@[simp] theorem clkPhase_errCode : (clkPhase c r).errCode = r.errCode := by
  unfold clkPhase
  split <;> simp

@[simp] theorem tickPhase_linTgt : (tickPhase c r).linTgt = r.linTgt := by
  unfold tickPhase
  split <;> simp
@[simp] theorem tickPhase_linStart : (tickPhase c r).linStart = r.linStart := by
  unfold tickPhase
  split <;> simp
@[simp] theorem tickPhase_err : (tickPhase c r).err = r.err := by
  unfold tickPhase
  split <;> simp
@[simp] theorem tickPhase_errCode : (tickPhase c r).errCode = r.errCode := by
  unfold tickPhase
  split <;> simp
@[simp] theorem tickPhase_cnt : (tickPhase c r).cnt = r.cnt := by
  unfold tickPhase
  split <;> simp
@[simp] theorem tickPhase_dutyAct : (tickPhase c r).dutyAct = r.dutyAct := by
  unfold tickPhase
  split <;> simp

variable {r} {c} (ws : List Word)

/-- While BUSY = 1 a cycle without Reset is its PwmClk and its Tick. -/
theorem cycleRegs_of_busy (hr : c.reset = false) (hb : r.busy = true) :
    cycleRegs c ws r = tickPhase c (clkPhase c r) := by
  simp [cycleRegs, hr, hb, cmdRegs_of_busy]

/-- While BUSY = 0 a cycle without Reset is its PwmClk and its command. -/
theorem cycleRegs_of_idle (hr : c.reset = false) (hb : r.busy = false) :
    cycleRegs c ws r = cmdRegs c false ws (clkPhase c r) := by
  simp [cycleRegs, hr, hb, tickPhase_of_idle]

end

section
variable (c : ClockCycle) (s : State)

@[simp] theorem cycleState_build : (cycleState c s).build = s.build := rfl
@[simp] theorem cycleState_regs : (cycleState c s).regs = cycleRegs c s.words s.regs := rfl
@[simp] theorem cycleState_words : (cycleState c s).words = cycleWords c s.regs.busy s.words := rfl
@[simp] theorem cycleState_inputs : (cycleState c s).inputs = s.inputs := rfl
end

/-! Runs of the machine. -/

theorem run_of_next (M : Host.Core) {s t : M.State} (h : M.step s = .next t) (n : Nat) :
    M.run (n + 1) s = M.run n t := by
  simp only [Host.Core.run, h]

theorem run_zero (s : State) : Sys2Proof.core.run 0 s = .next s := rfl

theorem run_succ {s t : State} (h : step s = .next t) (n : Nat) :
    Sys2Proof.core.run (n + 1) s = Sys2Proof.core.run n t := run_of_next Sys2Proof.core h n

end Sys2Proof.Machine
end

