-- ==== Sys2Proof/Tests/Slice0.lean ====
section
/-! SUPPORT. Tests of this model. Every expected value is from spec/, most from 95_test_vectors.md; a comment names the
place. The last part shows, for each statement with hypotheses, states and operands that meet them. -/

namespace Sys2Proof.Tests

open Sys2Proof Sys2Proof.Machine

/-- The 8-bit build with T_CHANGE = 10, the build of most vectors. -/
def build8 : Build := { pwmBits := .eight, tChange := 10, pwmInclusive := false }

/-- The 10-bit build with T_CHANGE = 10 and the inclusive compare. -/
def build10 : Build := { pwmBits := .ten, tChange := 10, pwmInclusive := true }

/-- The 8-bit build with T_CHANGE = 0. -/
def build0 : Build := { pwmBits := .eight, tChange := 0, pwmInclusive := false }

/-- The end of 95_test_vectors.md §6.3: idle at LIN_CUR = 512, DUTY = 33. -/
def idleState : State :=
  { State.resetOf build8 with regs := { Regs.reset build8 with
    linCur := 512, linTgt := 512, duty := 33, elapsed := 61 } }

/-- The ramp of 95_test_vectors.md §6.1 at e = 5. -/
def rampState : State :=
  { State.resetOf build8 with regs := { Regs.reset build8 with
    linCur := 511, linTgt := 1023, duty := 33, busy := true, elapsed := 5 } }

/-- The same ramp one Tick before its end. -/
def lastMsState : State :=
  { State.resetOf build8 with regs := { Regs.reset build8 with
    linCur := 1023, linTgt := 1023, duty := 255, busy := true, elapsed := 60 } }

/-- The state with an error recorded. -/
def errState (c : BitVec 2) : State := { idleState with regs := { idleState.regs with err := true, errCode := c } }

/-- The state before the cycle c in which the host has the word w to present. -/
def facing (c : ClockCycle) (w : Word) (s : State) : State := { s with inputs := [c], words := [w] }

/-- The next state of an outcome. -/
def after (o : Host.Outcome State Fault Refusal) : Option State :=
  match o with
  | .next t => some t
  | .fault _ => none
  | .refused _ => none

/-- The registers the vectors list: LIN_CUR, LIN_TGT, LIN_START, DUTY, ELAPSED, BUSY. -/
def levels (s : State) : List Nat :=
  [s.regs.linCur.toNat, s.regs.linTgt.toNat, s.regs.linStart.toNat, s.regs.duty.toNat, s.regs.elapsed.toNat,
    s.regs.busy.toNat]

/-! WellFormed refuses an ill-formed term of each kind (30_encoding.md R75, R77). -/

theorem test_illFormed_opcode : wordWellFormed 0x5000 = false ∧ wordWellFormed 0xFFFF = false := by decide
theorem test_illFormed_nop : wordWellFormed 0x0001 = false ∧ wordWellFormed 0x0800 = false := by decide
theorem test_illFormed_ramp : wordWellFormed 0x1400 = false ∧ wordWellFormed 0x1800 = false := by decide
theorem test_illFormed_setd : wordWellFormed 0x2800 = false := by decide
theorem test_illFormed_sett : wordWellFormed 0x3FFF = false := by decide
theorem test_illFormed_clrerr : wordWellFormed 0x4001 = false := by decide
theorem test_wellFormed_words : wordWellFormed 0x0000 ∧ wordWellFormed 0x13FF ∧ wordWellFormed 0x252C ∧
    wordWellFormed 0x37FF ∧ wordWellFormed 0x4000 := by decide
theorem test_illFormed_rampLine : (AsmLine.ramp 1024).wellFormed = false := by decide
theorem test_illFormed_setdLine : (AsmLine.setd 1024 true).wellFormed = false := by decide
theorem test_illFormed_settLine : (AsmLine.sett 1024 false).wellFormed = false := by decide
theorem test_illFormed_trackLine : (AsmLine.track 1024).wellFormed = false := by decide
theorem test_illFormed_wordLine : (AsmLine.word 65536).wellFormed = false := by decide

/-! Decoding, the words written out field by field from 30_encoding.md R71 and R74. -/

/-- OP 0000, ZERO. -/
theorem test_decode_nop : decode 0b0000_000000000000 = .ok .nop := rfl
/-- OP 0001, RSV 00, VAL 10_0000_0000. -/
theorem test_decode_ramp : decode 0b0001_00_1000000000 = .ok (.ramp 512) := rfl
/-- OP 0010, RSV 0, U 1, VAL 01_0010_1100. -/
theorem test_decode_setd : decode 0b0010_0_1_0100101100 = .ok (.setd 300 true) := rfl
/-- OP 0010, RSV 0, U 0, VAL 00_0000_0001. -/
theorem test_decode_setd_lowest : decode 0b0010_0_0_0000000001 = .ok (.setd 1 false) := rfl
/-- OP 0011, RSV 0, U 0, VAL 01_0010_1100. -/
theorem test_decode_sett : decode 0b0011_0_0_0100101100 = .ok (.sett 300 false) := rfl
/-- OP 0011, RSV 0, U 1, VAL all ones. -/
theorem test_decode_sett_highest : decode 0b0011_0_1_1111111111 = .ok (.sett 1023 true) := rfl
/-- OP 0100, ZERO. -/
theorem test_decode_clrerr : decode 0b0100_000000000000 = .ok .clrerr := rfl
/-- 30_encoding.md R79 and 95_test_vectors.md §8. -/
theorem test_decode_illegal : decode 0x5000 = .error .illegalOp ∧ decode 0xFFFF = .error .illegalOp ∧
    decode 0x8123 = .error .illegalOp := ⟨rfl, rfl, rfl⟩
/-- 95_test_vectors.md §8. -/
theorem test_decode_reserved : decode 0x0001 = .error .rsvBits ∧ decode 0x1400 = .error .rsvBits ∧
    decode 0x1800 = .error .rsvBits ∧ decode 0x2800 = .error .rsvBits ∧ decode 0x3FFF = .error .rsvBits ∧
    decode 0x4001 = .error .rsvBits := ⟨rfl, rfl, rfl, rfl, rfl, rfl⟩
/-- The priority vector of 95_test_vectors.md §8. -/
theorem test_decode_priority : decode 0x5FFF = .error .illegalOp := rfl
/-- The encoder on the examples of 30_encoding.md R79. -/
theorem test_encode : encode (.ramp 1023) = 0x13FF ∧ encode (.setd 300 true) = 0x252C ∧
    encode (.sett 300 false) = 0x312C ∧ encode .clrerr = 0x4000 ∧ encode .nop = 0x0000 := by decide
theorem test_tableWord : decodeTableWord 16 0x1200 = some (.ramp 512) ∧ decodeTableWord 16 0x5000 = none := by decide
/-- 30_encoding.md R77: case, comment, hexadecimal, out of range. -/
theorem test_assembler :
    assembleText [['s','e','t','D',' ','0','x','1','2','C',',','U',' ',';','x'], [';'], ['T','R','A','C','K',' ','5']] =
      some [0x252C, 0x3005] ∧
    assembleText [['R','A','M','P',' ','1','0','2','4']] = none := by decide

/-! One step of each instruction. -/

/-- 95_test_vectors.md §8, the NOP row. -/
theorem test_nop : after (exec .nop idleState) = some idleState := by decide
/-- 41_transition.md R121, the example. -/
theorem test_ramp : (after (exec (.ramp 512) (State.resetOf build8))).map levels = some [0, 512, 0, 1, 0, 1] := by decide
/-- 95_test_vectors.md §6.6. -/
theorem test_ramp_noTime : (after (exec (.ramp 700) (State.resetOf build0))).map levels =
    some [700, 700, 0, 82, 0, 1] := by decide
/-- 95_test_vectors.md §7. -/
theorem test_setd : (after (exec (.setd 300 true) idleState)).map levels = some [300, 300, 0, 8, 61, 0] := by decide
/-- 95_test_vectors.md §7: no update, and never 0. -/
theorem test_setd_zero : (after (exec (.setd 0 false) idleState)).map levels = some [512, 512, 0, 1, 61, 0] := by decide
/-- 95_test_vectors.md §7. -/
theorem test_sett : (after (exec (.sett 300 false) idleState)).map levels = some [512, 512, 0, 6, 61, 0] := by decide
/-- 95_test_vectors.md §7. -/
theorem test_sett_full : (after (exec (.sett 1023 true) idleState)).map levels =
    some [1023, 1023, 0, 175, 61, 0] := by decide
/-- 95_test_vectors.md §8, the CLRERR rows. -/
theorem test_clrerr : after (exec .clrerr (errState 2)) = some idleState := by decide
/-- 95_test_vectors.md §8: a malformed CLRERR clears nothing, and the first code is kept. -/
theorem test_clrerr_malformed : after (accept 0x4001 (errState 1)) = some (errState 1) := by decide
/-- 95_test_vectors.md §8. -/
theorem test_commandErrors : (after (accept 0x5000 idleState)).map (fun t => regRead 0 t.regs) = some 0x0006 ∧
    (after (accept 0x1400 idleState)).map (fun t => regRead 0 t.regs) = some 0x000A := by decide

/-! Events and cycles. -/

/-- 95_test_vectors.md §6.1, Tick 6. -/
theorem test_tick : levels (rampState.setRegs (tick rampState.regs)) = [613, 1023, 0, 55, 6, 1] := by decide
/-- 95_test_vectors.md §6.1, Tick 61. -/
theorem test_tick_last : levels (lastMsState.setRegs (tick lastMsState.regs)) = [1023, 1023, 0, 255, 61, 0] := by decide
/-- 95_test_vectors.md §5: both directions truncate toward the start. -/
theorem test_lerp : lerp 1023 0 1 4 = 768 ∧ lerp 1000 3 1 7 = 858 ∧ lerp 3 1000 1 7 = 145 ∧ lerp 6 5 1 2 = 6 ∧
    lerp 0 1023 65483 65484 = 1022 := by decide
/-- 95_test_vectors.md §9: the wrap loads DUTY. -/
theorem test_pwmClk_wrap : pwmClk { idleState.regs with cnt := 255 } = { idleState.regs with cnt := 0, dutyAct := 33 } := by
  decide
/-- 95_test_vectors.md §9: the two compares at CNT = DUTY_ACT. -/
theorem test_pwmOut : pwmOut { idleState.regs with cnt := 33, dutyAct := 33 } = false ∧
    pwmOut { Regs.reset build10 with cnt := 33, dutyAct := 33 } = true := by decide
/-- 95_test_vectors.md §8.1. -/
theorem test_regRead : [0, 1, 2, 3, 4, 5, 6, 7].map (fun a => regRead (BitVec.ofNat 3 a) rampState.regs) =
    [1, 511, 1023, 0, 33, 5, 0, 10] := by decide
/-- 95_test_vectors.md §6.7: the Tick that ends the ramp, and a word that is not taken in its cycle. -/
theorem test_tick_and_held_word :
    (after (step (facing { tick := true, cmdValid := true } 0x2000 lastMsState))).map
      (fun t => (t.regs.busy, t.words, t.regs.duty.toNat)) = some (false, [0x2000], 255) := by decide
/-- 95_test_vectors.md §6.7: Tick and RAMP in one cycle of an idle block. -/
theorem test_tick_and_ramp :
    (after (step (facing { tick := true, cmdValid := true } 0x1064 (State.resetOf build8)))).map levels =
      some [0, 100, 0, 1, 0, 1] := by decide
/-- 95_test_vectors.md §6.7: Reset mid-ramp; the presented word stays (70_reset_and_hazards.md R230). -/
theorem test_reset_mid_ramp : after (step (facing { reset := true, tick := true } 0x4000 rampState)) =
    some { State.resetOf build8 with words := [0x4000] } := by decide
/-- A Read sees the events of its cycle (20_memory.md R55): Tick 6 of 95_test_vectors.md §6.1 is read as DUTY = 55. -/
theorem test_read_sees_tick : (after (step { rampState with inputs := [{ tick := true, read := some 4 }] })).map
    (·.readResult) = some (some 55) := by decide

/-! For each statement with hypotheses: states and operands that meet them together, clause by clause. -/

theorem test_witness_WellFormedWordIsTheEncodingOfItsInstruction : decode 0x37FF = .ok (.sett 1023 true) := rfl

theorem test_witness_OpcodeMapSelectsTheDecodedRow :
    decode 0x13FF = .ok (.ramp 1023) ∧ OpRow.ramp ∈ OpRow.table ∧ OpRow.ramp.selectedBy 0x13FF = true :=
  ⟨rfl, by decide, by decide⟩

theorem test_witness_MalformedWordsAreExactlyTheReservedOnes :
    rampState.regs.busy = true ∧ idleState.regs.busy = false ∧ decode 0x5000 = .error .illegalOp ∧
    decode 0x3FFF = .error .rsvBits := ⟨rfl, rfl, rfl, rfl⟩

theorem test_witness_AssemblerEmitsTheTabulatedWords :
    assemble (.ramp 1023) = some 0x13FF ∧ assemble (.ramp 1024) = none ∧ assemble (.word 0xFFFF) = some 0xFFFF ∧
    assemble (.word 0x10000) = none := by decide

theorem test_witness_AssembledCommandsDecode :
    assemble (.setd 1023 true) = some 0x27FF ∧ ∀ n, AsmLine.setd 1023 true ≠ .word n := ⟨rfl, nofun⟩

theorem test_witness_RescaleFollowsThePathAndBuild :
    build8.pwmBits = .eight ∧ build10.pwmBits = .ten ∧ (4 : Lin).toNat ≤ 4 ∧ rescale build8 .std 4 = 0 ∧
    rescale build8 .track 5 = 1 ∧ rescale build8 .std 1022 = 254 ∧ rescale build10 .track 1023 = 1023 := by decide

theorem test_witness_CubicCorrectionWithInactiveClamp :
    corr8 9 = 1 ∧ corr8 255 = 255 ∧ corr8 256 = 255 ∧ corr10 14 = 1 ∧ corr10 15 = 2 ∧ corr10 1024 = 1023 := by decide

theorem test_witness_OutIsCorrectedRescale :
    build8.pwmBits = .eight ∧ build10.pwmBits = .ten ∧ out build8 .std 1023 = 255 ∧ out build10 .track 1023 = 1023 ∧
    idleState.build = build8 ∧ (after (exec (.setd 300 false) idleState)).map (·.regs.duty.toNat) = some 8 := by decide

theorem test_witness_ThirtyTwoBitDatapathIsExact :
    (255#32).toNat ≤ 255 ∧ ((255#32 * 255#32 * 255#32 + 130305#32) >>> 16).toNat = 255 ∧
    (1023#32).toNat ≤ 1023 ∧ ((1023#32 * 1023#32 * 1023#32 + 2094081#32) >>> 20).toNat = 1023 := by decide

theorem test_witness_OutputFunctionProperties :
    (40 : Lin).toNat ≤ (41 : Lin).toNat ∧ build8.pwmBits = .eight ∧ (out build8 .std 40).toNat = 1 ∧
    (out build8 .std 41).toNat = 2 ∧ corr8 255 - corr8 254 = 3 := by decide

theorem test_witness_LerpStaysOnTheStartSideOfTheLine :
    lerp 0 1023 0 0 = 1023 ∧ lerp 0 1023 0 10 = 0 ∧ lerp 0 1023 10 10 = 1023 ∧ lerp 1023 0 1 4 = 768 ∧
    lerp 700 700 5 10 = 700 ∧ lerp 0 1023 65484 65484 = 1023 := by decide

theorem test_witness_RampCapturesTheStartAndTakesTheFirstSample :
    idleState.regs.busy = false ∧ rampState.regs.busy = true ∧ (0x1400 : Word).toNat = 0x1400 ∧
    (0x1FFF : Word).toNat = 0x1FFF ∧
    (∃ t, exec (.ramp 512) idleState = .next t) ∧ idleState.regs.linCur = 512 ∧
    (State.resetOf build8).regs.busy = false ∧ build8.pwmBits = .eight ∧ build8.tChange.val = 10 ∧
    (State.resetOf build8).regs.linCur = 0 ∧ (0x1200 : Word) &&& 0xFC00 = 0x1000 :=
  ⟨rfl, rfl, rfl, rfl, ⟨_, rfl⟩, rfl, rfl, rfl, rfl, rfl, by decide⟩

theorem test_witness_SetdWritesTheStandardPath :
    idleState.regs.busy = false ∧ (∃ t, exec (.setd 512 true) idleState = .next t) ∧ build8.pwmBits = .eight ∧
    (40 : Lin).toNat ≤ 40 ∧ 0x2800 ≤ (0x2800 : Word).toNat ∧ (0x2FFF : Word).toNat ≤ 0x2FFF ∧
    (0x27FF : Word) &&& 0xF800 = 0x2000 := ⟨rfl, ⟨_, rfl⟩, rfl, by decide, by decide, by decide, by decide⟩

theorem test_witness_SettWritesTheTrackingPath :
    idleState.regs.busy = false ∧ build8.pwmBits = .eight ∧ (State.resetOf build10).build.pwmBits = .ten ∧
    0x3800 ≤ (0x3800 : Word).toNat ∧ (0x3FFF : Word).toNat ≤ 0x3FFF ∧ (0x37FF : Word) &&& 0xF800 = 0x3000 := by decide

theorem test_witness_NopChangesNothing :
    idleState.regs.busy = false ∧ 0x0001 ≤ (0x0001 : Word).toNat ∧ (0x0FFF : Word).toNat ≤ 0x0FFF ∧
    (facing cmdCycle 0x0000 rampState).inputs = [cmdCycle] ∧ (facing cmdCycle 0x0000 rampState).words = [0x0000] ∧
    (∃ t, step (facing cmdCycle 0x0000 rampState) = .next t) := ⟨rfl, by decide, by decide, rfl, rfl, ⟨_, rfl⟩⟩

theorem test_witness_ClrerrClearsTheErrorRecord :
    (errState 1).regs.busy = false ∧ 0x4001 ≤ (0x4001 : Word).toNat ∧ (0x4FFF : Word).toNat ≤ 0x4FFF ∧
    idleState.regs.err = false ∧ idleState.regs.errCode = 0 ∧ rampState.regs.busy = true := by decide

theorem test_witness_NoCommandCancelsARamp :
    rampState.regs.busy = true ∧ cmdCycle.reset = false ∧ cmdCycle.tick = false ∧
    (∃ t, runCycle cmdCycle rampState = .next t) ∧ (∃ t, runCycle { tick := true } rampState = .next t) :=
  ⟨rfl, rfl, rfl, ⟨_, rfl⟩, ⟨_, rfl⟩⟩

theorem test_witness_MalformedWordOnlyRecordsItsError :
    idleState.regs.busy = false ∧ 5 ≤ (0x5000 : Word).toNat / 4096 ∧ (0x4FFF : Word).toNat / 4096 = 4 ∧
    (0x4FFF : Word).toNat % 4096 ≠ 0 ∧ (0x1400 : Word).toNat / 1024 % 4 ≠ 0 ∧ (0x2800 : Word).toNat / 2048 % 2 = 1 ∧
    (facing cmdCycle 0x5000 idleState).inputs = [cmdCycle] ∧ (facing cmdCycle 0x5000 idleState).words = [0x5000] ∧
    (facing cmdCycle 0x5000 idleState).regs.busy = false ∧ decode 0x5000 = .error .illegalOp :=
  ⟨rfl, by decide, by decide, by decide, by decide, by decide, rfl, rfl, rfl, rfl⟩

/-- CLRERR clears the record, a malformed word sets it, and a Reset clears it. -/
theorem test_witness_ErrorRecordIsStickyUntilCleared :
    (∃ t, step (facing cmdCycle 0x4000 (errState 1)) = .next t ∧ (errState 1).regs.err = true ∧ t.regs.err = false) ∧
    (∃ t, step (facing cmdCycle 0x5000 idleState) = .next t ∧ idleState.regs.err = false ∧ t.regs.err = true ∧
      t.regs.errCode ≠ idleState.regs.errCode) ∧
    (∃ t, step (facing resetCycle 0x5000 (errState 2)) = .next t ∧ t.regs.errCode = 0) :=
  ⟨⟨_, rfl, rfl, rfl⟩, ⟨_, rfl, rfl, rfl, by decide⟩, ⟨_, rfl, rfl⟩⟩

theorem test_witness_TickCountsAndSamples :
    idleState.regs.busy = false ∧ rampState.regs.busy = true ∧
    rampState.regs.elapsed.toNat ≤ rampState.build.tChange.val + 50 ∧
    lastMsState.regs.busy = true ∧ lastMsState.regs.elapsed.toNat = lastMsState.build.tChange.val + 50 := by decide

/-- The whole ramp: 60 cycles with a Tick, a PwmClk and a held word each, then the Tick that ends it. -/
theorem test_witness_RampRunsItsFullLengthAndEndsAtTheTarget :
    let cs := List.replicate 60 ({ pwmClk := true, tick := true, cmdValid := true } : ClockCycle)
    let s := { State.resetOf build8 with inputs := cs ++ [{ tick := true }], words := [0x5000] }
    s.regs.busy = false ∧ (∃ r, exec (.ramp 512) s = .next r) ∧ (∀ c ∈ cs, c.reset = false) ∧
      tickCount cs ≤ s.build.tChange.val + 50 ∧ tickCount cs = s.build.tChange.val + 50 :=
  ⟨rfl, ⟨_, rfl⟩, by decide, by decide, by decide⟩

theorem test_witness_WorkedRampFromZeroToFull :
    (startRamp 1023 (Regs.reset build8)).linCur = 0 ∧ (startRamp 1023 (Regs.reset build8)).duty = 1 := by decide

theorem test_witness_CarrierPeriodAndFrequency :
    build8.pwmBits = .eight ∧ build10.pwmBits = .ten ∧ (clocks 1 { Regs.reset build8 with cnt := 255 }).cnt.toNat = 0 ∧
    (clocks 1 { Regs.reset build10 with cnt := 255 }).cnt.toNat = 256 := by decide

theorem test_witness_PwmClkStepsOrWrapsTheCounter :
    ({ Regs.reset build8 with cnt := 255 } : Regs build8).cnt.toNat = build8.pwmMax ∧
    ({ Regs.reset build8 with cnt := 254 } : Regs build8).cnt.toNat ≠ build8.pwmMax ∧
    ({ Regs.reset build10 with cnt := 1023 } : Regs build10).cnt.toNat = build10.pwmMax := by decide

/-- Two writes of DUTY in the last two clocks of a period, and the clock that wraps. -/
theorem test_witness_DutyReachesTheWaveformOnlyAtTheWrap :
    let cs : List ClockCycle := [{ pwmClk := true, cmdValid := true }, { cmdValid := true }]
    let s : State := { idleState with
      regs := { idleState.regs with cnt := 254 }, words := [0x2000, 0x2029], inputs := cs ++ [{ pwmClk := true }] }
    (∀ c ∈ cs, c.reset = false) ∧ s.regs.cnt.toNat + clockCount cs ≤ s.build.pwmMax ∧
      s.regs.cnt.toNat + clockCount cs = s.build.pwmMax := by decide

theorem test_witness_PwmOutIsHighForTheDutyOfThePeriod :
    ({ Regs.reset build8 with dutyAct := 255 } : Regs build8).cnt = 0 ∧
    ({ Regs.reset build10 with dutyAct := 1023 } : Regs build10).cnt = 0 := by decide

theorem test_witness_CarrierRunsWhateverElseHappens :
    (∃ t, runCycle { pwmClk := true, tick := true, read := some 7 } rampState = .next t) ∧
    (∃ t, runCycle cmdCycle rampState = .next t) := ⟨⟨_, rfl⟩, ⟨_, rfl⟩⟩

theorem test_witness_CarrierDoesNotInfluenceTheOtherRegisters :
    forgetCarrier { rampState with regs := { rampState.regs with cnt := 255, dutyAct := 33 } } =
      forgetCarrier rampState := by decide

theorem test_witness_ReadSeesTheCycleAndChangesNothing :
    ({ tick := true, read := some 4 } : ClockCycle).reset = false := rfl

theorem test_witness_ResetSetsEveryRegister :
    (facing resetCycle 0x4000 rampState).inputs = [resetCycle] ∧ resetCycle.reset = true := by decide

theorem test_witness_PresentedWordSurvivesReset :
    ({ rampState with inputs := [resetCycle, cmdCycle], words := [0x252C] } : State).inputs = [resetCycle, cmdCycle] ∧
    ({ rampState with inputs := [resetCycle, cmdCycle], words := [0x252C] } : State).words = [0x252C] ∧
    resetCycle.reset = true ∧ decode 0x252C = .ok (.setd 300 true) := ⟨rfl, rfl, rfl, rfl⟩

/-- The clause of power-up over addresses, at its last address, and the one over clocks, at the last of the period. -/
theorem test_witness_PowerUpState :
    (5 : RegAddr).toNat ≤ 5 ∧ regRead 5 State.reset.regs = 0 ∧ State.reset.regs.cnt = 0 ∧
    pwmOut (clocks 1 { Regs.reset build8 with cnt := 254 }) = false := ⟨by decide, rfl, rfl, by decide⟩

theorem test_witness_BuildNeverChanges : ∃ t, step (facing resetCycle 0x4000 rampState) = .next t ∧ t.build = build8 :=
  ⟨_, rfl, rfl⟩

theorem test_witness_OnlyLegalParametersBuild :
    (∃ b, buildOf 8 65484 true = .ok b) ∧ (∃ b, buildOf 10 0 false = .ok b) ∧
    buildOf 8 65485 true = .error .illegalBuild ∧ buildOf 9 0 true = .error .illegalBuild :=
  ⟨⟨_, rfl⟩, ⟨_, rfl⟩, rfl, rfl⟩

theorem test_witness_StepRunsTheDecodedInstruction :
    (facing cmdCycle 0x252C idleState).inputs = [cmdCycle] ∧ (facing cmdCycle 0x252C idleState).words = [0x252C] ∧
    (facing cmdCycle 0x252C idleState).regs.busy = false ∧ decode 0x252C = .ok (.setd 300 true) := ⟨rfl, rfl, rfl, rfl⟩

/-- A word taken, a word held, and the cycle that ends a ramp. -/
theorem test_witness_CommandAcceptance :
    (∃ t, step (facing cmdCycle 0x252C idleState) = .next t ∧ idleState.regs.busy = false ∧ t.words = []) ∧
    (∃ t, step (facing cmdCycle 0x252C rampState) = .next t ∧ rampState.regs.busy = true ∧ t.words = [0x252C]) ∧
    (∃ t, step (facing { tick := true } 0x252C lastMsState) = .next t ∧ lastMsState.regs.busy = true ∧
      t.regs.busy = false) :=
  ⟨⟨_, rfl, rfl, rfl⟩, ⟨_, rfl, rfl, rfl⟩, ⟨_, rfl, rfl, rfl⟩⟩

theorem test_witness_CycleAppliesItsEventsInOrder :
    ({ reset := true, pwmClk := true, tick := true } : ClockCycle).reset = true ∧
    ({ pwmClk := true, tick := true, cmdValid := true, read := some 0 } : ClockCycle).reset = false ∧
    (facing cmdCycle 0x1000 idleState).words = [0x1000] ∧ (facing cmdCycle 0x1000 idleState).regs.busy = false ∧
    (facing cmdCycle 0x1000 rampState).regs.busy = true := by decide

theorem test_witness_EveryStepKeepsTheInvariant :
    BlockInv (facing { tick := true } 0x1000 rampState).regs ∧
    (∃ t, step (facing { tick := true } 0x1000 rampState) = .next t) := by
  refine ⟨⟨?_, ?_, ?_, ?_, ?_, ?_, ?_, ?_⟩, ⟨_, rfl⟩⟩ <;> decide

theorem test_witness_OnlyResetLeavesDutyZero :
    (∃ t, exec .nop (State.resetOf build8) = .next t ∧ t.regs.duty = 0) ∧
    (∃ t, exec (.setd 0 true) idleState = .next t) ∧ (∃ t, exec (.sett 0 false) idleState = .next t) ∧
    (∃ t, step (facing resetCycle 0x2000 idleState) = .next t ∧ t.regs.duty = 0) :=
  ⟨⟨_, rfl, rfl⟩, ⟨_, rfl⟩, ⟨_, rfl⟩, ⟨_, rfl, rfl⟩⟩

/-- Each of the four writers at work: a RAMP, a write with the update flag, and a Tick that samples or ends a ramp. -/
theorem test_witness_RegistersHaveOnlyTheirWriters :
    (after (runCycle cmdCycle { idleState with words := [0x1000] })).map levels = some [512, 0, 512, 33, 0, 1] ∧
    (after (runCycle cmdCycle { idleState with words := [0x252C] })).map levels = some [300, 300, 0, 8, 61, 0] ∧
    (after (runCycle { tick := true } rampState)).map levels = some [613, 1023, 0, 55, 6, 1] ∧
    (after (runCycle { tick := true } lastMsState)).map levels = some [1023, 1023, 0, 255, 61, 0] := by decide

theorem test_witness_DutyNeedNotFollowTheLinearLevel :
    build8.pwmBits = .eight ∧ idleState.regs.busy = false ∧ out build8 .std 1023 = 255 ∧ out build8 .track 1023 = 175 := by
  decide

end Sys2Proof.Tests
end

section
/-! Building a block (00_scope.md R8): `buildOf` reads back the parameters of every build and refuses all others. -/

namespace Sys2Proof.Machine

open Sys2Proof

theorem width_eq_eight_or_ten (p : PwmBits) : p.width = 8 ∨ p.width = 10 := by
  cases p with
  | eight => exact .inl rfl
  | ten => exact .inr rfl

theorem tChange_le (b : Build) : b.tChange.val ≤ 65484 := Nat.le_of_lt_succ b.tChange.isLt

/-- Every build is the one built from its own parameters. -/
theorem buildOf_parameters (b : Build) :
    buildOf b.pwmBits.width b.tChange.val b.pwmInclusive = .ok b := by
  obtain ⟨p, t, i⟩ := b
  cases p with
  | eight => simp [buildOf, PwmBits.width]
  | ten => simp [buildOf, PwmBits.width]

theorem buildOf_eq_ok_iff {n t : Nat} {i : Bool} {b : Build} :
    buildOf n t i = .ok b ↔ b.pwmBits.width = n ∧ b.tChange.val = t ∧ b.pwmInclusive = i := by
  constructor
  · intro h
    unfold buildOf at h
    split_ifs at h with ht h8 h10
    · cases h
      exact ⟨h8.symm, rfl, rfl⟩
    · cases h
      exact ⟨h10.symm, rfl, rfl⟩
  · rintro ⟨rfl, rfl, rfl⟩
    exact buildOf_parameters b

theorem exists_buildOf_eq_ok_iff {n t : Nat} {i : Bool} :
    (∃ b, buildOf n t i = .ok b) ↔ (n = 8 ∨ n = 10) ∧ t ≤ 65484 := by
  constructor
  · rintro ⟨b, h⟩
    obtain ⟨rfl, rfl, -⟩ := buildOf_eq_ok_iff.mp h
    exact ⟨width_eq_eight_or_ten b.pwmBits, tChange_le b⟩
  · rintro ⟨rfl | rfl, ht⟩
    · exact ⟨⟨.eight, ⟨t, Nat.lt_succ_of_le ht⟩, i⟩, buildOf_eq_ok_iff.mpr ⟨rfl, rfl, rfl⟩⟩
    · exact ⟨⟨.ten, ⟨t, Nat.lt_succ_of_le ht⟩, i⟩, buildOf_eq_ok_iff.mpr ⟨rfl, rfl, rfl⟩⟩

/-- `illegalBuild` is the only refusal `buildOf` answers. -/
theorem eq_illegalBuild_of_buildOf_eq_error {n t : Nat} {i : Bool} {r : Refusal}
    (h : buildOf n t i = .error r) : r = .illegalBuild := by
  unfold buildOf at h
  split_ifs at h
  · cases h
    rfl
  · cases h
    rfl

theorem buildOf_of_illegal {n t : Nat} (i : Bool) (h : ¬ ((n = 8 ∨ n = 10) ∧ t ≤ 65484)) :
    buildOf n t i = .error .illegalBuild := by
  cases hb : buildOf n t i with
  | ok b => exact absurd (exists_buildOf_eq_ok_iff.mp ⟨b, hb⟩) h
  | error r => rw [eq_illegalBuild_of_buildOf_eq_error hb]

/-- Settles O37: a build is answered exactly for its own parameters, and its T_CHANGE carries the bound of R8. -/
theorem onlyLegalParametersBuild : Obligations.OnlyLegalParametersBuild := by
  intro n t i
  refine ⟨exists_buildOf_eq_ok_iff, fun b hb => ?_, buildOf_of_illegal i⟩
  obtain ⟨hn, ht, hi⟩ := buildOf_eq_ok_iff.mp hb
  have hle := tChange_le b
  exact ⟨hn, ht, hi, by omega⟩

end Sys2Proof.Machine
end

section
/-! The error record of a cycle (10_state.md R27, R28): the four things a cycle can do to ERR and ERRCODE, and where
STATUS shows them. -/

namespace Sys2Proof.Machine

open Sys2Proof

/-- The branch of `decode` that answers CLRERR has OP = 4 and ZERO = 0, and these two fields are the whole word. -/
theorem decode_eq_clrerr_iff (w : Word) : decode w = .ok .clrerr ↔ w = 0x4000 := by
  constructor
  · intro h
    have hop := opField_toNat w
    have hzero := zeroField_toNat w
    unfold decode at h
    split_ifs at h
    case neg => bv_omega
    all_goals cases h
  · rintro rfl
    rfl

theorem errorCode_ne_three (e : CmdError) : errorCode e ≠ 3 := by
  cases e with
  | illegalOp => decide
  | rsvBits => decide

section
variable {b : Build} (r : Regs b)

@[simp] theorem raiseCmdError_err (e : CmdError) : (raiseCmdError e r).err = true := by
  rw [raiseCmdError_eq]

@[simp] theorem raiseCmdError_errCode (e : CmdError) :
    (raiseCmdError e r).errCode = if r.err then r.errCode else errorCode e := by
  rw [raiseCmdError_eq]

theorem execRegs_err_of_ne {i : Instr} (h : i ≠ .clrerr) : (execRegs i r).err = r.err := by
  cases i with
  | nop => rfl
  | ramp v => rfl
  | setd v u => simp [execRegs, direct_eq]
  | sett v u => simp [execRegs, direct_eq]
  | clrerr => exact absurd rfl h

theorem execRegs_errCode_of_ne {i : Instr} (h : i ≠ .clrerr) : (execRegs i r).errCode = r.errCode := by
  cases i with
  | nop => rfl
  | ramp v => rfl
  | setd v u => simp [execRegs, direct_eq]
  | sett v u => simp [execRegs, direct_eq]
  | clrerr => exact absurd rfl h

end

/-- What the cycle c does to the error record when the host has the words ws: r are the registers before it and r'
those after it. -/
inductive ErrorRecordStep {b : Build} (c : ClockCycle) (ws : List Word) (r r' : Regs b) : Prop where
  /-- The cycle is a Reset. -/
  | reset (hc : c.reset = true) (herr : r'.err = false) (hcode : r'.errCode = 0)
  /-- Nothing in the cycle writes the record. -/
  | kept (hc : c.reset = false) (herr : r'.err = r.err) (hcode : r'.errCode = r.errCode)
  /-- The cycle accepts a CLRERR. -/
  | cleared (hcmd : c.cmdValid = true) (hidle : r.busy = false) (hw : ws.head? = some 0x4000)
      (herr : r'.err = false) (hcode : r'.errCode = 0)
  /-- The cycle accepts a malformed word. -/
  | recorded (hc : c.reset = false) (hcmd : c.cmdValid = true) (hidle : r.busy = false) (w : Word) (e : CmdError)
      (hw : ws.head? = some w) (he : decode w = .error e)
      (herr : r'.err = true) (hcode : r'.errCode = if r.err then r.errCode else errorCode e)

/-- PwmClk, Tick and Read never touch the record, so what a cycle does to it is the Reset or the word it accepts. -/
theorem cycleRegs_errorRecordStep {b : Build} (c : ClockCycle) (ws : List Word) (r : Regs b) :
    ErrorRecordStep c ws r (cycleRegs c ws r) := by
  cases hc : c.reset with
  | true =>
    rw [cycleRegs_of_reset r hc]
    exact .reset hc rfl rfl
  | false =>
    have hcycle : cycleRegs c ws r = cmdRegs c r.busy ws (tickPhase c (clkPhase c r)) := by simp [cycleRegs, hc]
    rw [hcycle]
    rcases cmdRegs_cases (tickPhase c (clkPhase c r)) c r.busy ws with ⟨_, hr⟩ | ⟨hcmd, hidle, w, ws', rfl, hr⟩
    · rw [hr]
      exact .kept hc (by simp) (by simp)
    · rw [hr]
      rcases acceptRegs_cases (tickPhase c (clkPhase c r)) w with ⟨_, ha⟩ | ⟨_, i, hi, ha⟩ | ⟨_, e, he, ha⟩
      · rw [ha]
        exact .kept hc (by simp) (by simp)
      · rw [ha]
        by_cases hclr : i = .clrerr
        · subst hclr
          exact .cleared hcmd hidle (congrArg some ((decode_eq_clrerr_iff w).mp hi)) rfl rfl
        · exact .kept hc (by simp [execRegs_err_of_ne _ hclr]) (by simp [execRegs_errCode_of_ne _ hclr])
      · rw [ha]
        exact .recorded hc hcmd hidle w e rfl he (by simp) (by simp)

namespace ErrorRecordStep

variable {b : Build} {c : ClockCycle} {ws : List Word} {r r' : Regs b}

theorem of_err_cleared (h : ErrorRecordStep c ws r r') (hr : r.err = true) (hr' : r'.err = false) :
    c.reset = true ∨ (c.cmdValid = true ∧ r.busy = false ∧ ws.head? = some 0x4000) := by
  cases h with
  | reset hc => exact .inl hc
  | kept _ herr => simp [herr, hr] at hr'
  | cleared hcmd hidle hw => exact .inr ⟨hcmd, hidle, hw⟩
  | recorded _ _ _ _ _ _ _ herr => simp [herr] at hr'

theorem of_err_set (h : ErrorRecordStep c ws r r') (hr : r.err = false) (hr' : r'.err = true) :
    c.reset = false ∧ c.cmdValid = true ∧ r.busy = false ∧
      ∃ w e, ws.head? = some w ∧ decode w = .error e ∧ r'.errCode = errorCode e := by
  cases h with
  | reset _ herr => simp [herr] at hr'
  | kept _ herr => simp [herr, hr] at hr'
  | cleared _ _ _ herr => simp [herr] at hr'
  | recorded hc hcmd hidle w e hw he _ hcode => exact ⟨hc, hcmd, hidle, w, e, hw, he, by simp [hcode, hr]⟩

theorem of_errCode_ne (h : ErrorRecordStep c ws r r') (hne : r'.errCode ≠ r.errCode) :
    c.reset = true ∨ (c.cmdValid = true ∧ r.busy = false ∧
      ((ws.head? = some 0x4000 ∧ r'.errCode = 0) ∨
        (r.err = false ∧ ∃ w e, ws.head? = some w ∧ decode w = .error e ∧ r'.errCode = errorCode e))) := by
  cases h with
  | reset hc => exact .inl hc
  | kept _ _ hcode => exact absurd hcode hne
  | cleared hcmd hidle hw _ hcode => exact .inr ⟨hcmd, hidle, .inl ⟨hw, hcode⟩⟩
  | recorded _ hcmd hidle w e hw he _ hcode =>
    have hr : r.err = false := by
      by_contra hr
      exact hne (by simp [hcode, hr])
    exact .inr ⟨hcmd, hidle, .inr ⟨hr, w, e, hw, he, by simp [hcode, hr]⟩⟩

theorem of_reset (h : ErrorRecordStep c ws r r') (hreset : c.reset = true) : r'.err = false ∧ r'.errCode = 0 := by
  cases h with
  | reset _ herr hcode => exact ⟨herr, hcode⟩
  | kept hc => simp [hc] at hreset
  | cleared _ _ _ herr hcode => exact ⟨herr, hcode⟩
  | recorded hc => simp [hc] at hreset

theorem of_errCode_eq_three (h : ErrorRecordStep c ws r r') (h3 : r'.errCode = 3) : r.errCode = 3 := by
  cases h with
  | reset _ _ hcode => simp [hcode] at h3
  | kept _ _ hcode => exact hcode.symm.trans h3
  | cleared _ _ _ _ hcode => simp [hcode] at h3
  | recorded _ _ _ _ e _ _ _ hcode =>
    rw [hcode] at h3
    split at h3
    · exact h3
    · exact absurd h3 (errorCode_ne_three e)

end ErrorRecordStep

theorem statusWord_getLsbD_one {b : Build} (r : Regs b) : (statusWord r).getLsbD 1 = r.err := by
  rw [statusWord, BitVec.getLsbD_append, BitVec.getLsbD_append]
  simp

theorem statusWord_extractLsb'_two {b : Build} (r : Regs b) : (statusWord r).extractLsb' 2 2 = r.errCode := by
  ext i hi
  have hpast : ¬ 2 + i < 1 ∧ ¬ 2 + i - 1 < 1 ∧ 2 + i - 1 - 1 = i := by omega
  rw [BitVec.getElem_extractLsb', statusWord, BitVec.getLsbD_append, BitVec.getLsbD_append, BitVec.getLsbD_append]
  simp [hi, hpast]

/-- Settles O21: each clause about a step is one property of `ErrorRecordStep`, which every cycle satisfies. -/
theorem errorRecordIsStickyUntilCleared : Obligations.ErrorRecordIsStickyUntilCleared := by
  refine ⟨fun s t c cs hs ht => ?_, rfl, rfl, fun s hidle => exec_of_idle hidle .clrerr, rfl, rfl,
    fun s => ⟨statusWord_getLsbD_one s.regs, statusWord_extractLsb'_two s.regs⟩⟩
  rw [step_of_cons hs] at ht
  cases ht
  have h := cycleRegs_errorRecordStep c s.words s.regs
  exact ⟨h.of_err_cleared, h.of_err_set, h.of_errCode_ne, h.of_reset, h.of_errCode_eq_three⟩

end Sys2Proof.Machine
end

section
/-! Reset and the build (10_state.md R30, R31, R36): the registers a Reset leaves, and what no step changes. -/

namespace Sys2Proof.Machine

open Sys2Proof

theorem cycleState_of_reset {c : ClockCycle} (h : c.reset = true) (s : State) :
    cycleState c s = { s with regs := Regs.reset s.build, readResult := none } := by
  simp [cycleState, cycleWords, h, cycleRegs_of_reset s.regs h]

/-! CONFIG and TCHANGE are functions of the build, whatever the registers hold. -/

@[simp] theorem regRead_config {b : Build} (r : Regs b) : regRead 6 r = configWord b := rfl

@[simp] theorem regRead_tChange {b : Build} (r : Regs b) : regRead 7 r = tChangeWord b := rfl

theorem configWord_eq_one_iff (b : Build) : configWord b = 1 ↔ b.pwmBits = .ten := by
  unfold configWord
  cases b.pwmBits with
  | eight => decide
  | ten => decide

theorem configWord_eq_zero_iff (b : Build) : configWord b = 0 ↔ b.pwmBits = .eight := by
  unfold configWord
  cases b.pwmBits with
  | eight => decide
  | ten => decide

/-- The bound of R8 makes T_CHANGE fit the 16 bits of its register. -/
theorem tChangeWord_toNat (b : Build) : (tChangeWord b).toNat = b.tChange.val := by
  have hle := tChange_le b
  exact Nat.mod_eq_of_lt (by omega)

theorem step_build {s t : State} (h : step s = .next t) : t.build = s.build := by
  cases hs : s.inputs with
  | nil =>
    rw [step_of_nil hs] at h
    cases h
    rfl
  | cons c cs =>
    rw [step_of_cons hs] at h
    cases h
    rfl

/-- Settles O33: a cycle with Reset is the reset registers, and CONFIG and TCHANGE read the build alone. -/
theorem resetSetsEveryRegister : Obligations.ResetSetsEveryRegister := by
  refine ⟨fun s c cs hs hc => ?_, fun s => ⟨rfl, rfl⟩⟩
  rw [step_of_cons hs, cycleState_of_reset hc]
  rfl

/-- Settles O36: CONFIG and TCHANGE are functions of the build, which `step_build` keeps. -/
theorem buildNeverChanges : Obligations.BuildNeverChanges := by
  refine ⟨fun s t h => ?_, fun b r => ?_⟩
  · have hb := step_build h
    exact ⟨hb, congrArg configWord hb, congrArg tChangeWord hb⟩
  · exact ⟨configWord_eq_one_iff b, configWord_eq_zero_iff b, tChangeWord_toNat b⟩

end Sys2Proof.Machine
end

section
/-! DUTY against out(STD, LIN_CUR) (10_state.md R37). The level 1023 tells them apart: its output is above 1, the output
of the reset level 0, on both paths, and the two paths of the 8-bit build differ there. -/

namespace Sys2Proof.Machine

open Sys2Proof

theorem pwmBits_eq_eight_or_ten (b : Build) : b.pwmBits = .eight ∨ b.pwmBits = .ten := by
  cases b.pwmBits with
  | eight => exact .inl rfl
  | ten => exact .inr rfl

theorem out_zero_toNat (b : Build) (p : OutPath) : (out b p 0).toNat = 1 := by
  rcases pwmBits_eq_eight_or_ten b with h8 | h10
  · rw [out_of_eight h8]
    cases p <;> decide
  · rw [out_of_ten h10]
    decide

theorem one_lt_out_full (b : Build) (p : OutPath) : 1 < (out b p 1023).toNat := by
  rcases pwmBits_eq_eight_or_ten b with h8 | h10
  · rw [out_of_eight h8]
    cases p <;> decide
  · rw [out_of_ten h10]
    decide

theorem pwmVal_one_toNat (b : Build) : (1 : PwmVal b).toNat = 1 := by
  obtain ⟨n, t, i⟩ := b
  cases n with
  | eight => rfl
  | ten => rfl

theorem out_zero (b : Build) (p : OutPath) : out b p 0 = 1 :=
  BitVec.eq_of_toNat_eq ((out_zero_toNat b p).trans (pwmVal_one_toNat b).symm)

theorem out_full_ne_out_zero (b : Build) (p q : OutPath) : out b p 1023 ≠ out b q 0 := by
  intro h
  have hlt := one_lt_out_full b p
  rw [h, out_zero_toNat] at hlt
  exact Nat.lt_irrefl 1 hlt

/-- 175 on the tracking path and 255 on the standard path: K_TRACK is below K_STD (90_conflicts.md C3). -/
theorem out_track_full_ne_std_full {b : Build} (h8 : b.pwmBits = .eight) : out b .track 1023 ≠ out b .std 1023 := by
  intro h
  have hnat := congrArg BitVec.toNat h
  rw [out_of_eight h8, out_of_eight h8] at hnat
  exact absurd hnat (by decide)

/-- Settles O46: every direct write of the level 1023 from reset breaks the relation, except SETD with U = 1. -/
theorem dutyNeedNotFollowTheLinearLevel : Obligations.DutyNeedNotFollowTheLinearLevel := by
  refine ⟨fun b => ⟨rfl, rfl, out_zero b .std⟩, fun b => (out_ne_zero b .std 0).symm, fun b => ?_, fun b => ?_,
    fun b h8 => ?_, fun b e r => sample_duty r e, fun s v hidle => ?_⟩
  · exact ⟨1023, _, exec_of_idle rfl (.setd 1023 false), out_full_ne_out_zero b .std .std⟩
  · exact ⟨1023, _, exec_of_idle rfl (.sett 1023 false), out_full_ne_out_zero b .track .std⟩
  · exact ⟨1023, _, exec_of_idle rfl (.sett 1023 true), out_track_full_ne_std_full h8⟩
  · exact ⟨_, exec_of_idle hidle (.setd v true), rfl⟩

end Sys2Proof.Machine
end

section
/-! The events of one cycle in the order of 20_memory.md R55, and the acceptance of a presented word (R54): when the
command of a cycle takes a word, what it leaves when it takes none, and how a ramp ends. -/

namespace Sys2Proof.Machine

open Sys2Proof

theorem cmdRegs_of_taken {b : Build} (r : Regs b) {c : ClockCycle} (hcmd : c.cmdValid = true) (w : Word)
    (ws : List Word) : cmdRegs c false (w :: ws) r = acceptRegs w r := by
  simp [cmdRegs, hcmd]

theorem cmdRegs_of_not_taken {b : Build} (r : Regs b) {c : ClockCycle} {busyAtStart : Bool} {ws : List Word}
    (h : c.cmdValid = false ∨ busyAtStart = true ∨ ws = []) : cmdRegs c busyAtStart ws r = r := by
  rcases cmdRegs_cases r c busyAtStart ws with ⟨_, hr⟩ | ⟨hcmd, hidle, w, ws', rfl, _⟩
  · exact hr
  · simp [hcmd, hidle] at h

theorem cycleRegs_of_no_reset {b : Build} (r : Regs b) {c : ClockCycle} (hreset : c.reset = false) (ws : List Word) :
    cycleRegs c ws r = cmdRegs c r.busy ws (tickPhase c (clkPhase c r)) := by
  simp [cycleRegs, hreset]

theorem cycleWords_of_taken {c : ClockCycle} (hreset : c.reset = false) (hcmd : c.cmdValid = true) (w : Word)
    (ws : List Word) : cycleWords c false (w :: ws) = ws := by
  simp [cycleWords, hreset, hcmd]

theorem cycleWords_of_busy (c : ClockCycle) (ws : List Word) : cycleWords c true ws = ws := by
  simp [cycleWords]

/-- Everything a cycle can do to the host's words. -/
theorem cycleWords_cases (c : ClockCycle) (busyAtStart : Bool) (ws : List Word) :
    cycleWords c busyAtStart ws = ws ∨
    (busyAtStart = false ∧ c.cmdValid = true ∧ ∃ w, ws = w :: cycleWords c busyAtStart ws) := by
  cases busyAtStart with
  | true => exact .inl (cycleWords_of_busy c ws)
  | false =>
    cases ws with
    | nil => exact .inl (by simp [cycleWords])
    | cons w ws =>
      cases hreset : c.reset with
      | true => exact .inl (by simp [cycleWords, hreset])
      | false =>
        cases hcmd : c.cmdValid with
        | false => exact .inl (by simp [cycleWords, hcmd])
        | true => exact .inr ⟨rfl, rfl, w, by rw [cycleWords_of_taken hreset hcmd]⟩

theorem cycleWords_of_not_taken {c : ClockCycle} {busyAtStart : Bool} {ws : List Word}
    (h : c.cmdValid = false ∨ busyAtStart = true ∨ ws = []) : cycleWords c busyAtStart ws = ws := by
  rcases cycleWords_cases c busyAtStart ws with hws | ⟨hidle, hcmd, w, hw⟩
  · exact hws
  · have hnil : ws = [] := by simpa [hidle, hcmd] using h
    exact absurd (hw.symm.trans hnil) (List.cons_ne_nil w _)

theorem cycleState_cmdCycle (s : State) :
    cycleState cmdCycle s = { s with
      regs := cycleRegs cmdCycle s.words s.regs
      words := cycleWords cmdCycle s.regs.busy s.words
      readResult := none } := rfl

theorem tick_of_busy_cleared {b : Build} {r : Regs b} (hbusy : r.busy = true) (hidle : (tick r).busy = false) :
    b.tChange.val + Config.holdMs < (r.elapsed + 1).toNat := by
  rcases tick_cases r with ⟨hb, _⟩ | ⟨_, he, _⟩ | ⟨_, _, ht⟩
  · simp [hbusy] at hb
  · exact he
  · simp [ht, hbusy] at hidle

/-- Only a Reset and the Tick that ends the ramp clear BUSY. -/
theorem cycleRegs_of_busy_cleared {b : Build} {r : Regs b} {c : ClockCycle} {ws : List Word} (hbusy : r.busy = true)
    (hidle : (cycleRegs c ws r).busy = false) :
    c.reset = true ∨ (c.tick = true ∧ b.tChange.val + Config.holdMs < (r.elapsed + 1).toNat) := by
  cases hreset : c.reset with
  | true => exact .inl rfl
  | false =>
    rw [cycleRegs_of_busy ws hreset hbusy, tickPhase] at hidle
    split at hidle
    next htick => exact .inr ⟨htick, by simpa using tick_of_busy_cleared (by simp [hbusy]) hidle⟩
    next => simp [hbusy] at hidle

/-- Settles O39: a step is `cycleState`, whose words and BUSY have one lemma for each way a cycle can treat them. -/
theorem commandAcceptance : Obligations.CommandAcceptance := by
  intro s t c cs hs ht
  rw [step_of_cons hs] at ht
  cases ht
  refine ⟨?taken, ?takenWords, ?heldWords, ?held, cycleRegs_of_busy_cleared, ?inOrder⟩
  case taken =>
    rintro w ws hw rfl hidle
    have hregs : cycleRegs cmdCycle s.words s.regs = acceptRegs w s.regs := by
      rw [cycleRegs_of_idle s.words rfl hidle, hw]
      exact cmdRegs_of_taken s.regs rfl w ws
    have hwords : cycleWords cmdCycle s.regs.busy s.words = ws := by
      rw [hw, hidle]
      exact cycleWords_of_taken rfl rfl w ws
    rw [accept_eq, cycleState_cmdCycle]
    simp [State.setRegs, State.setInputs, hregs, hwords]
  case takenWords =>
    intro w ws hw hreset hcmd hidle
    simp [hw, hidle, cycleWords_of_taken hreset hcmd]
  case heldWords =>
    intro hbusy
    simp [hbusy, cycleWords_of_busy]
  case held =>
    rintro hbusy rfl
    have hregs : cycleRegs cmdCycle s.words s.regs = s.regs := cycleRegs_of_busy s.words rfl hbusy
    rw [cycleState_cmdCycle]
    simp [State.setInputs, hregs, hbusy, cycleWords_of_busy]
  case inOrder =>
    rcases cycleWords_cases c s.regs.busy s.words with hkept | ⟨hidle, hcmd, w, hw⟩
    · exact .inl hkept
    · exact .inr ⟨w, hw, hidle, hcmd⟩

/-- Settles O40: the registers of `cycleState` are those of the phases in turn, and its words go with the command. -/
theorem cycleAppliesItsEventsInOrder : Obligations.CycleAppliesItsEventsInOrder := by
  refine fun c s => ⟨fun hreset => ?_, fun hreset => ?_⟩
  · rw [runCycle_eq, runCycle_eq, cycleState_of_reset hreset, cycleState_of_reset rfl]
  · have hregs := cycleRegs_of_no_reset s.regs hreset s.words
    refine ⟨clkPhase c s.regs, tickPhase c (clkPhase c s.regs),
      { s with regs := cycleRegs c s.words s.regs, words := cycleWords c s.regs.busy s.words },
      rfl, rfl, ?taken, ?notTaken, fun hidle => tickPhase_of_idle _ c (by simp [hidle]), ?result⟩
    case taken =>
      intro w ws hw hcmd hidle
      rw [accept_eq, hregs, hw, hidle, cmdRegs_of_taken _ hcmd, cycleWords_of_taken hreset hcmd]
      rfl
    case notTaken =>
      intro h
      rw [hregs, cmdRegs_of_not_taken _ h, cycleWords_of_not_taken h]
    case result =>
      rw [runCycle_eq, cycleState, hreset]
      rfl

end Sys2Proof.Machine
end

section
/-! The register read map (20_memory.md R51): each address as a number. -/

namespace Sys2Proof.Machine

open Sys2Proof

theorem append_toNat {m n : Nat} (x : BitVec m) (y : BitVec n) : (x ++ y).toNat = x.toNat * 2 ^ n + y.toNat := by
  rw [BitVec.toNat_append, ← Nat.shiftLeft_add_eq_or_of_lt y.isLt, Nat.shiftLeft_eq]

/-- STATUS is {ERRCODE, ERR, BUSY} (10_state.md R29). -/
theorem statusWord_toNat {b : Build} (r : Regs b) :
    (statusWord r).toNat = r.errCode.toNat * 4 + r.err.toNat * 2 + r.busy.toNat := by
  rw [statusWord, append_toNat, append_toNat, append_toNat, BitVec.toNat_ofBool, BitVec.toNat_ofBool,
    BitVec.toNat_ofNat]
  omega

theorem configWord_toNat (b : Build) : (configWord b).toNat = if b.pwmBits = .ten then 1 else 0 := by
  unfold configWord
  cases b.pwmBits with
  | eight => rfl
  | ten => rfl

theorem lin_setWidth_toNat (v : Lin) : (v.setWidth 16).toNat = v.toNat :=
  BitVec.toNat_setWidth_of_le (by decide)

/-- Both builds' DUTY fits the 16 bits of the port. -/
theorem pwmVal_setWidth_toNat {b : Build} (v : PwmVal b) : (v.setWidth 16).toNat = v.toNat :=
  BitVec.toNat_setWidth_of_le (by rcases width_eq_eight_or_ten b.pwmBits with h | h <;> omega)

/-- Settles O31: an address reads its register widened to 16 bits, which keeps the register's number. -/
theorem registerReadMap : Obligations.RegisterReadMap := by
  intro b r
  have hduty : (regRead 4 r).toNat = r.duty.toNat := pwmVal_setWidth_toNat r.duty
  have hbits : (regRead 4 r).toNat < 2 ^ b.pwmBits.width := by
    rw [hduty]
    exact r.duty.isLt
  exact ⟨statusWord_toNat r, lin_setWidth_toNat r.linCur, lin_setWidth_toNat r.linTgt, lin_setWidth_toNat r.linStart,
    hduty, hbits, rfl, configWord_toNat b, tChangeWord_toNat b⟩

end Sys2Proof.Machine
end

section
/-! The decoder as a relation (30_encoding.md R74 to R76): each answer together with the words that get it, as numbers.
What the opcode map and the list of malformed words claim is one constructor each. -/

namespace Sys2Proof

/-- A bit that the format of a legal OP marks "must be 0" is 1 (30_encoding.md R75). -/
def ReservedBitSet (w : Word) : Prop :=
  ((w.toNat / 4096 = 0 ∨ w.toNat / 4096 = 4) ∧ w.toNat % 4096 ≠ 0) ∨
  (w.toNat / 4096 = 1 ∧ w.toNat / 1024 % 4 ≠ 0) ∨
  ((w.toNat / 4096 = 2 ∨ w.toNat / 4096 = 3) ∧ w.toNat / 2048 % 2 = 1)

/-- The decoder's answer to the word w. -/
inductive Decodes (w : Word) : Except CmdError Instr → Prop where
  | illegalOp (h : 5 ≤ w.toNat / 4096) : Decodes w (.error .illegalOp)
  | rsvBits (h : ReservedBitSet w) : Decodes w (.error .rsvBits)
  | nop (h : w.toNat = 0) : Decodes w (.ok .nop)
  | ramp (h : w.toNat / 1024 = 4) : Decodes w (.ok (.ramp (valField w)))
  | setd (h : w.toNat / 2048 = 4) : Decodes w (.ok (.setd (valField w) (uField w)))
  | sett (h : w.toNat / 2048 = 6) : Decodes w (.ok (.sett (valField w) (uField w)))
  | clrerr (h : w.toNat = 0x4000) : Decodes w (.ok .clrerr)

theorem opField_eq_iff (w : Word) (op : BitVec 4) : opField w = op ↔ w.toNat / 4096 = op.toNat := by
  rw [← BitVec.toNat_inj, opField_toNat]

theorem zeroField_eq_zero_iff (w : Word) : zeroField w = 0 ↔ w.toNat % 4096 = 0 := by
  rw [← BitVec.toNat_inj, zeroField_toNat]
  rfl

theorem rsvField_eq_zero_iff (w : Word) : rsvField w = 0 ↔ w.toNat / 1024 % 4 = 0 := by
  rw [← BitVec.toNat_inj, rsvField_toNat]
  rfl

theorem rsvBit_iff (w : Word) : rsvBit w = true ↔ w.toNat / 2048 % 2 = 1 := by
  rw [rsvBit_eq, decide_eq_true_iff]

/-- The branches of `decode` in turn. -/
theorem decodes_decode (w : Word) : Decodes w (decode w) := by
  have hw := w.isLt
  unfold decode
  simp only [opField_toNat, opField_eq_iff, ne_eq, zeroField_eq_zero_iff, rsvField_eq_zero_iff, rsvBit_iff]
  split_ifs with hill hz hr hd h0 h1 h2 h3
  · exact .illegalOp hill
  · exact .rsvBits (.inl hz)
  · exact .rsvBits (.inr (.inl hr))
  · exact .rsvBits (.inr (.inr hd))
  all_goals simp only [BitVec.reduceToNat] at *
  · exact .nop (by omega)
  · exact .ramp (by omega)
  · exact .setd (by omega)
  · exact .sett (by omega)
  · exact .clrerr (by omega)

/-- No word has two answers: its OP separates the instructions and the illegal range, and within one OP the
must-be-zero bits separate the instruction from the error. -/
theorem Decodes.eq_decode {w : Word} {a : Except CmdError Instr} (h : Decodes w a) : decode w = a := by
  unfold decode
  simp only [opField_toNat, opField_eq_iff, ne_eq, zeroField_eq_zero_iff, rsvField_eq_zero_iff, rsvBit_iff]
  simp only [BitVec.reduceToNat]
  cases h with
  | illegalOp h => exact if_pos h
  | rsvBits h =>
    rw [if_neg (by unfold ReservedBitSet at h; omega)]
    rcases h with hz | hr | hd
    · rw [if_pos hz]
    · rw [if_pos hr, ite_self]
    · rw [if_pos hd, ite_self, ite_self]
  | nop h => simp [h]
  | ramp h =>
    have hop : w.toNat / 4096 = 1 := by omega
    simp [hop, h]
  | setd h =>
    have hop : w.toNat / 4096 = 2 := by omega
    simp [hop, h]
  | sett h =>
    have hop : w.toNat / 4096 = 3 := by omega
    simp [hop, h]
  | clrerr h => simp [h]

theorem decode_eq_iff {w : Word} {a : Except CmdError Instr} : decode w = a ↔ Decodes w a :=
  ⟨fun h => h ▸ decodes_decode w, Decodes.eq_decode⟩

/-- A mask of the bits from k up keeps the word's quotient by 2^k. -/
theorem and_allOnes_shiftLeft_toNat {n : Nat} (w : BitVec n) (k : Nat) :
    (w &&& (BitVec.allOnes n <<< k)).toNat = w.toNat / 2 ^ k * 2 ^ k := by
  have hshift : w &&& (BitVec.allOnes n <<< k) = (w >>> k) <<< k := by
    ext i hi
    by_cases hk : i < k
    · simp [hk]
    · simp [hk, hi, Nat.add_sub_cancel' (Nat.le_of_not_lt hk), BitVec.getLsbD_eq_getElem]
  rw [hshift, BitVec.toNat_shiftLeft, BitVec.toNat_ushiftRight, Nat.shiftRight_eq_div_pow, Nat.shiftLeft_eq]
  exact Nat.mod_eq_of_lt ((Nat.div_mul_le_self _ _).trans_lt w.isLt)

theorem maskZ_eq (w : Word) : w &&& 0xFFFF = w := BitVec.and_allOnes

theorem maskR_toNat (w : Word) : (w &&& 0xFC00).toNat = w.toNat / 1024 * 1024 := and_allOnes_shiftLeft_toNat w 10

theorem maskD_toNat (w : Word) : (w &&& 0xF800).toNat = w.toNat / 2048 * 2048 := and_allOnes_shiftLeft_toNat w 11

/-! The match and mask of each row (30_encoding.md R74) against the decoder. -/

theorem selects_nop_iff (w : Word) : w &&& 0xFFFF = 0x0000 ↔ decode w = .ok .nop := by
  rw [maskZ_eq, ← BitVec.toNat_inj]
  constructor
  · intro h
    exact decode_eq_iff.mpr (.nop h)
  · intro h
    cases decode_eq_iff.mp h with
    | nop h0 => exact h0

theorem selects_ramp_iff (w : Word) : w &&& 0xFC00 = 0x1000 ↔ ∃ v, decode w = .ok (.ramp v) := by
  rw [← BitVec.toNat_inj, maskR_toNat]
  constructor
  · intro h
    exact ⟨_, decode_eq_iff.mpr (.ramp (Nat.eq_of_mul_eq_mul_right (by decide) h))⟩
  · rintro ⟨v, h⟩
    cases decode_eq_iff.mp h with
    | ramp hw => exact congrArg (· * 1024) hw

theorem selects_setd_iff (w : Word) : w &&& 0xF800 = 0x2000 ↔ ∃ v u, decode w = .ok (.setd v u) := by
  rw [← BitVec.toNat_inj, maskD_toNat]
  constructor
  · intro h
    exact ⟨_, _, decode_eq_iff.mpr (.setd (Nat.eq_of_mul_eq_mul_right (by decide) h))⟩
  · rintro ⟨v, u, h⟩
    cases decode_eq_iff.mp h with
    | setd hw => exact congrArg (· * 2048) hw

theorem selects_sett_iff (w : Word) : w &&& 0xF800 = 0x3000 ↔ ∃ v u, decode w = .ok (.sett v u) := by
  rw [← BitVec.toNat_inj, maskD_toNat]
  constructor
  · intro h
    exact ⟨_, _, decode_eq_iff.mpr (.sett (Nat.eq_of_mul_eq_mul_right (by decide) h))⟩
  · rintro ⟨v, u, h⟩
    cases decode_eq_iff.mp h with
    | sett hw => exact congrArg (· * 2048) hw

theorem selects_clrerr_iff (w : Word) : w &&& 0xFFFF = 0x4000 ↔ decode w = .ok .clrerr := by
  rw [maskZ_eq, Machine.decode_eq_clrerr_iff]

theorem decode_eq_illegalOp_iff (w : Word) : decode w = .error .illegalOp ↔ 5 ≤ w.toNat / 4096 := by
  constructor
  · intro h
    cases decode_eq_iff.mp h with
    | illegalOp hop => exact hop
  · intro hop
    exact decode_eq_iff.mpr (.illegalOp hop)

theorem decode_eq_rsvBits_iff (w : Word) : decode w = .error .rsvBits ↔ ReservedBitSet w := by
  constructor
  · intro h
    cases decode_eq_iff.mp h with
    | rsvBits hbit => exact hbit
  · intro hbit
    exact decode_eq_iff.mpr (.rsvBits hbit)

/-- A row that matches a word is the row of the instruction the word decodes to. -/
theorem decode_of_selectedBy {w : Word} {r : OpRow} (hr : r ∈ OpRow.table) (h : r.selectedBy w = true) :
    ∃ i, decode w = .ok i ∧ i.row = r := by
  have hmatch : w &&& r.mask = r.pattern := beq_iff_eq.mp h
  simp only [OpRow.table, List.mem_cons, List.not_mem_nil, or_false] at hr
  rcases hr with rfl | rfl | rfl | rfl | rfl
  · exact ⟨_, (selects_nop_iff w).mp hmatch, rfl⟩
  · obtain ⟨v, hv⟩ := (selects_ramp_iff w).mp hmatch
    exact ⟨_, hv, rfl⟩
  · obtain ⟨v, u, hv⟩ := (selects_setd_iff w).mp hmatch
    exact ⟨_, hv, rfl⟩
  · obtain ⟨v, u, hv⟩ := (selects_sett_iff w).mp hmatch
    exact ⟨_, hv, rfl⟩
  · exact ⟨_, (selects_clrerr_iff w).mp hmatch, rfl⟩

/-- At most one row matches a word (30_encoding.md R74), because a word decodes to one instruction. -/
theorem row_unique {w : Word} {r q : OpRow} (hr : r ∈ OpRow.table) (hq : q ∈ OpRow.table)
    (hrw : r.selectedBy w = true) (hqw : q.selectedBy w = true) : r = q := by
  obtain ⟨i, hi, rfl⟩ := decode_of_selectedBy hr hrw
  obtain ⟨j, hj, rfl⟩ := decode_of_selectedBy hq hqw
  rw [hi] at hj
  cases hj
  rfl

/-- Settles O3: one lemma per row and one for the illegal range; the OP field is read off `Decodes`. -/
theorem opcodeMapSelectsTheDecodedRow : Obligations.OpcodeMapSelectsTheDecodedRow := by
  refine fun w => ⟨selects_nop_iff w, selects_ramp_iff w, selects_setd_iff w, selects_sett_iff w,
    selects_clrerr_iff w, (decode_eq_illegalOp_iff w).symm, fun i hi => ?op, fun r hr q hq => row_unique hr hq⟩
  case op =>
    cases decode_eq_iff.mp hi with
    | nop h => exact (by omega : w.toNat / 4096 = 0)
    | ramp h => exact (by omega : w.toNat / 4096 = 1)
    | setd h => exact (by omega : w.toNat / 4096 = 2)
    | sett h => exact (by omega : w.toNat / 4096 = 3)
    | clrerr h => exact (by omega : w.toNat / 4096 = 4)

end Sys2Proof
end

section
/-! What a presented word does to an idle block (30_encoding.md R75, R76), and how many words are illegal. -/

namespace Sys2Proof.Machine

open Sys2Proof

theorem decode_eq_nop_iff (w : Word) : decode w = .ok .nop ↔ w = 0x0000 := by
  rw [← selects_nop_iff, maskZ_eq]

theorem ncard_le_toNat (w n : Nat) : {x : BitVec w | n ≤ x.toNat}.ncard = 2 ^ w - n := by
  have himage : BitVec.toNat '' {x : BitVec w | n ≤ x.toNat} = Set.Ico n (2 ^ w) := by
    ext m
    constructor
    · rintro ⟨x, hx, rfl⟩
      exact ⟨hx, x.isLt⟩
    · rintro ⟨hn, hm⟩
      exact ⟨BitVec.ofNatLT m hm, hn, rfl⟩
  rw [← Set.ncard_image_of_injective _ (fun _ _ => BitVec.eq_of_toNat_eq), himage, Set.ncard_Ico_nat]

/-- 11 × 4096 of the 65536 words (30_encoding.md R75). -/
theorem ncard_illegalOp : Set.ncard { w : Word | decode w = .error .illegalOp } = 45056 := by
  have hset : { w : Word | decode w = .error .illegalOp } = { w : Word | 5 * 4096 ≤ w.toNat } := by
    ext w
    exact (decode_eq_illegalOp_iff w).trans (Nat.le_div_iff_mul_le (by decide))
  rw [hset]
  exact ncard_le_toNat 16 (5 * 4096)

theorem eq_regs_of_setRegs_eq_self {s : State} {r : Regs s.build} (h : s.setRegs r = s) : r = s.regs := by
  cases s
  simpa [State.setRegs] using h

section
variable {b : Build}

theorem acceptRegs_of_ok {r : Regs b} {w : Word} {i : Instr} (hidle : r.busy = false) (hw : decode w = .ok i) :
    acceptRegs w r = execRegs i r := by
  simp [acceptRegs, hidle, hw]

theorem acceptRegs_of_error {r : Regs b} {w : Word} {e : CmdError} (hidle : r.busy = false)
    (hw : decode w = .error e) : acceptRegs w r = raiseCmdError e r := by
  simp [acceptRegs, hidle, hw]

/-- RAMP sets BUSY, a direct write leaves a DUTY above the reset value 0, and CLRERR clears a recorded error. -/
theorem eq_nop_of_execRegs_eq_self {i : Instr} (h : ∀ r : Regs b, r.busy = false → execRegs i r = r) :
    i = .nop := by
  have hreset := h (Regs.reset b) rfl
  cases i with
  | nop => rfl
  | ramp v => exact absurd (congrArg Regs.busy hreset) (by simp [execRegs, startRamp_eq])
  | setd v u =>
    have hduty := (direct_duty _ .std v u).symm.trans (congrArg Regs.duty hreset)
    exact absurd hduty (out_ne_zero b .std v)
  | sett v u =>
    have hduty := (direct_duty _ .track v u).symm.trans (congrArg Regs.duty hreset)
    exact absurd hduty (out_ne_zero b .track v)
  | clrerr =>
    have hrecorded := h (errorRecorded 1 (Regs.reset b)) rfl
    exact absurd (congrArg Regs.err hrecorded) (by simp [execRegs, clearErrorRecord_eq, errorRecorded])

/-- NOP is the only word with no effect: a malformed one sets ERR. -/
theorem eq_zero_of_acceptRegs_eq_self {w : Word} (h : ∀ r : Regs b, r.busy = false → acceptRegs w r = r) :
    w = 0x0000 := by
  cases hw : decode w with
  | error e =>
    have hreset := h (Regs.reset b) rfl
    rw [acceptRegs_of_error rfl hw] at hreset
    exact absurd (congrArg Regs.err hreset) (by simp)
  | ok i =>
    have hnop : i = .nop := eq_nop_of_execRegs_eq_self fun r hidle =>
      (acceptRegs_of_ok hidle hw).symm.trans (h r hidle)
    exact (decode_eq_nop_iff w).mp (hnop ▸ hw)

end

/-- The two spellings of recording a malformed word: the model's and that of the statements. -/
theorem raiseCmdError_eq_errorRecorded {b : Build} (e : CmdError) (r : Regs b) :
    raiseCmdError e r = errorRecorded (errorCode e) r := raiseCmdError_eq r e

theorem accept_without_effect_iff (w : Word) :
    (∀ s : State, s.regs.busy = false → accept w s = .next s) ↔ w = 0x0000 := by
  constructor
  · intro h
    refine eq_zero_of_acceptRegs_eq_self (b := Config.defaultBuild) fun r hidle => ?_
    have hs := h { State.reset with regs := r } hidle
    rw [accept_eq] at hs
    exact eq_regs_of_setRegs_eq_self (Host.Outcome.next.inj hs)
  · rintro rfl s hidle
    exact (accept_of_ok hidle rfl).trans (exec_of_idle hidle .nop)

/-- Settles O4: the classes and the count are facts of the decoder; the hold, the record and NOP are `accept`'s. -/
theorem malformedWordsAreExactlyTheReservedOnes : Obligations.MalformedWordsAreExactlyTheReservedOnes := by
  refine ⟨fun w => ⟨decode_eq_illegalOp_iff w, decode_eq_rsvBits_iff w, fun s hbusy => accept_of_busy hbusy w,
    accept_without_effect_iff w⟩, fun w e s hw hidle => ?_, ncard_illegalOp⟩
  rw [accept_of_error hidle hw, raiseCmdError_eq_errorRecorded]
  cases e with
  | illegalOp => rfl
  | rsvBits => rfl

end Sys2Proof.Machine
end

section
/-! The worked examples of the encoding (30_encoding.md R79). -/

namespace Sys2Proof.Machine

open Sys2Proof

/-- Settles O5: the assembler and the decoder run on the table of R79. -/
theorem exampleWordsEncodeAndDecode : Obligations.ExampleWordsEncodeAndDecode :=
  ⟨by decide, rfl, rfl, rfl, rfl, rfl, rfl, rfl, rfl, rfl, rfl, rfl, rfl⟩

end Sys2Proof.Machine
end

section
/-! The rescale from the linear domain to the output domain (40_corrector.md R100). -/

namespace Sys2Proof.Machine

open Sys2Proof

theorem rescale_of_eight {b : Build} (h : b.pwmBits = .eight) (p : OutPath) (v : Lin) :
    rescale b p v = v.toNat * pathScale p / 1023 := by
  simp [rescale, h]

theorem rescale_of_ten {b : Build} (h : b.pwmBits = .ten) (p : OutPath) (v : Lin) : rescale b p v = v.toNat := by
  simp [rescale, h]

theorem rescale_mono (b : Build) (p : OutPath) {v w : Lin} (h : v.toNat ≤ w.toNat) :
    rescale b p v ≤ rescale b p w := by
  rcases pwmBits_eq_eight_or_ten b with h8 | h10
  · rw [rescale_of_eight h8, rescale_of_eight h8]
    gcongr
  · rw [rescale_of_ten h10, rescale_of_ten h10]
    exact h

/-- K is below the divisor 1023 of the rescale, so no level is skipped. -/
theorem pathScale_le (p : OutPath) : pathScale p ≤ 255 := by
  cases p <;> decide

theorem rescale_le_pathScale {b : Build} (h : b.pwmBits = .eight) (p : OutPath) (v : Lin) :
    rescale b p v ≤ pathScale p := by
  rw [rescale_of_eight h]
  exact Nat.div_le_of_le_mul (Nat.mul_le_mul_right _ (lin_le v))

theorem rescale_of_le_four {b : Build} (h : b.pwmBits = .eight) (p : OutPath) {v : Lin} (hv : v.toNat ≤ 4) :
    rescale b p v = 0 := by
  rw [rescale_of_eight h]
  exact Nat.div_eq_of_lt ((Nat.mul_le_mul hv (pathScale_le p)).trans_lt (by decide))

theorem rescale_std_eq_full_iff {b : Build} (h : b.pwmBits = .eight) (v : Lin) :
    rescale b .std v = 255 ↔ v = 1023 := by
  have hdiv : v.toNat * 255 / 1023 = 255 ↔ v.toNat = 1023 := by omega
  rw [rescale_of_eight h, BitVec.toNat_eq]
  exact hdiv

/-- Settles O8: the formula is the model's in each build, and every other clause is one lemma about it. -/
theorem rescaleFollowsThePathAndBuild : Obligations.RescaleFollowsThePathAndBuild := by
  intro b
  refine ⟨fun h8 => ⟨fun v => ?levels, ?examples⟩, fun h10 p v => ?ten⟩
  case levels =>
    exact ⟨rescale_of_eight h8 .std v, rescale_of_eight h8 .track v, Nat.mul_le_mul_right 255 (lin_le v),
      rescale_le_pathScale h8 .std v, rescale_le_pathScale h8 .track v,
      fun hv => ⟨rescale_of_le_four h8 .std hv, rescale_of_le_four h8 .track hv⟩, rescale_std_eq_full_iff h8 v⟩
  case examples =>
    simp only [rescale_of_eight h8]
    decide
  case ten =>
    rw [rescale_of_ten h10]
    exact ⟨rfl, lin_le v⟩

end Sys2Proof.Machine
end

section
/-! The cubic of both builds (40_corrector.md R101, R102). With m = PWM_MAX the constants are C = m (2 m + 1) and
2 ^ S = (m + 1) ^ 2, so both corrections are one function of m, and what R106 says of them is proved once. -/

namespace Sys2Proof.Machine

open Sys2Proof

/-- The correction before its clamp, in the build whose PWM_MAX is m. -/
def cubicCorr (m x : Nat) : Nat := (x * x * x + m * (2 * m + 1)) / (m + 1) ^ 2

theorem corr8_eq_min (x : Nat) : corr8 x = min (cubicCorr 255 x) 255 := rfl

theorem corr10_eq_min (x : Nat) : corr10 x = min (cubicCorr 1023 x) 1023 := rfl

theorem corr_eq_min (b : Build) (x : Nat) : corr b x = min (cubicCorr b.pwmMax x) b.pwmMax := by
  obtain ⟨n, t, i⟩ := b
  cases n with
  | eight => exact corr8_eq_min x
  | ten => exact corr10_eq_min x

theorem two_le_pwmMax (b : Build) : 2 ≤ b.pwmMax := by
  obtain ⟨n, t, i⟩ := b
  cases n with
  | eight => exact (by decide : 2 ≤ 255)
  | ten => exact (by decide : 2 ≤ 1023)

theorem cubicCorr_mono (m : Nat) : Monotone (cubicCorr m) := by
  intro x y h
  unfold cubicCorr
  gcongr

/-- m ^ 3 + C = m 2 ^ S. -/
theorem cubicCorr_self (m : Nat) : cubicCorr m m = m :=
  Nat.div_eq_of_eq_mul_left (by positivity) (by ring)

/-- The clamp is inactive on the domain. -/
theorem cubicCorr_le {m x : Nat} (h : x ≤ m) : cubicCorr m x ≤ m :=
  (cubicCorr_mono m h).trans_eq (cubicCorr_self m)

theorem corr8_of_le {x : Nat} (h : x ≤ 255) : corr8 x = cubicCorr 255 x :=
  Nat.min_eq_left (cubicCorr_le h)

theorem corr10_of_le {x : Nat} (h : x ≤ 1023) : corr10 x = cubicCorr 1023 x :=
  Nat.min_eq_left (cubicCorr_le h)

theorem corr_of_le {b : Build} {x : Nat} (h : x ≤ b.pwmMax) : corr b x = cubicCorr b.pwmMax x := by
  rw [corr_eq_min]
  exact Nat.min_eq_left (cubicCorr_le h)

/-- Everything below the level where the correction leaves 1 is corrected to 1, its least value. -/
theorem corr8_of_le_nine {x : Nat} (h : x ≤ 9) : corr8 x = 1 :=
  Nat.le_antisymm (corr8_mono h) (one_le_corr8 x)

theorem corr10_of_le_fourteen {x : Nat} (h : x ≤ 14) : corr10 x = 1 :=
  Nat.le_antisymm (corr10_mono h) (one_le_corr10 x)

/-- Settles O9: the clamp is inactive by `cubicCorr_le`; the low ends follow from monotonicity. -/
theorem cubicCorrectionWithInactiveClamp : Obligations.CubicCorrectionWithInactiveClamp :=
  ⟨fun _ => rfl, fun _ => corr8_of_le, fun _ => corr8_of_le_nine, rfl, rfl, rfl, rfl, rfl,
    fun _ => rfl, fun _ => corr10_of_le, fun _ => corr10_of_le_fourteen, rfl, rfl, rfl, rfl⟩

end Sys2Proof.Machine
end

section
/-! The values a command leaves in DUTY (40_corrector.md R103, R104). -/

namespace Sys2Proof.Machine

open Sys2Proof

/-- A command keeps DUTY or writes a value of `out`. -/
theorem execRegs_duty_cases {b : Build} (i : Instr) (r : Regs b) :
    (execRegs i r).duty = r.duty ∨ ∃ p v, (execRegs i r).duty = out b p v := by
  cases i with
  | nop => exact .inl rfl
  | ramp v => exact .inr ⟨.std, _, sample_duty _ 0⟩
  | setd v u => exact .inr ⟨.std, v, direct_duty r .std v u⟩
  | sett v u => exact .inr ⟨.track, v, direct_duty r .track v u⟩
  | clrerr => exact .inl rfl

theorem exec_duty_of_ne {s t : State} {i : Instr} (h : exec i s = .next t)
    (hne : t.regs.duty.toNat ≠ s.regs.duty.toNat) : ∃ p v, t.regs.duty = out t.build p v := by
  cases hbusy : s.regs.busy with
  | true =>
    rw [exec_of_busy hbusy] at h
    cases h
    exact absurd rfl hne
  | false =>
    rw [exec_of_idle hbusy] at h
    cases h
    rcases execRegs_duty_cases i s.regs with hkept | hwritten
    · exact absurd (congrArg BitVec.toNat hkept) hne
    · exact hwritten

theorem corr_of_eight {b : Build} (h : b.pwmBits = .eight) (x : Nat) : corr b x = corr8 x := by
  simp [corr, h]

theorem corr_of_ten {b : Build} (h : b.pwmBits = .ten) (x : Nat) : corr b x = corr10 x := by
  simp [corr, h]

theorem out_eq_of_eight {b : Build} (h : b.pwmBits = .eight) {p : OutPath} {v : Lin} {n : Nat}
    (hn : corr8 (v.toNat * pathScale p / 1023) = n) : out b p v = BitVec.ofNat b.pwmBits.width n :=
  congrArg (BitVec.ofNat _) ((out_toNat b p v).symm.trans ((out_of_eight h p v).trans hn))

theorem out_eq_of_ten {b : Build} (h : b.pwmBits = .ten) {p : OutPath} {v : Lin} {n : Nat}
    (hn : corr10 v.toNat = n) : out b p v = BitVec.ofNat b.pwmBits.width n :=
  congrArg (BitVec.ofNat _) ((out_toNat b p v).symm.trans ((out_of_ten h p v).trans hn))

/-- Settles O10: `out` loses nothing in PWM_BITS bits, and DUTY changes only by `execRegs_duty_cases`. -/
theorem outIsCorrectedRescale : Obligations.OutIsCorrectedRescale :=
  ⟨fun _ _ _ h hne => exec_duty_of_ne h hne, fun b => ⟨fun p v => ⟨out_toNat b p v, pwmVal_le (out b p v)⟩,
    fun h8 => ⟨corr_of_eight h8, out_eq_of_eight h8 (by decide), out_eq_of_eight h8 (by decide),
      out_eq_of_eight h8 (by decide), out_eq_of_eight h8 (by decide)⟩,
    fun h10 => ⟨corr_of_ten h10, out_eq_of_ten h10 (by decide), out_eq_of_ten h10 (by decide)⟩⟩⟩

end Sys2Proof.Machine
end

section
/-! The datapath on 32-bit words (40_corrector.md R105): while the exact value fits, reducing each intermediate modulo
2 ^ 32 loses nothing. -/

namespace Sys2Proof.Machine

open Sys2Proof

theorem scaled_lt (p : OutPath) (v : Lin) : v.toNat * pathScale p < 2 ^ 18 :=
  (Nat.mul_le_mul (lin_le v) (pathScale_le p)).trans_lt (by decide)

theorem rescale_on_words (p : OutPath) (v : Lin) :
    ((v.setWidth 32 * BitVec.ofNat 32 (pathScale p)) / 1023#32).toNat = v.toNat * pathScale p / 1023 := by
  have hfits := scaled_lt p v
  have hprod : (v.setWidth 32 * BitVec.ofNat 32 (pathScale p)).toNat = v.toNat * pathScale p := by
    rw [BitVec.toNat_mul, BitVec.toNat_setWidth, BitVec.toNat_ofNat, ← Nat.mul_mod]
    exact Nat.mod_eq_of_lt (by omega)
  rw [BitVec.toNat_udiv, hprod]
  rfl

theorem cube_add_lt {m c x bound : Nat} (hx : x ≤ m) (h : m * m * m + c < bound) : x * x * x + c < bound :=
  lt_of_le_of_lt (by gcongr) h

theorem cube_add_on_words {x c : BitVec 32} (h : x.toNat * x.toNat * x.toNat + c.toNat < 2 ^ 32) :
    (x * x * x + c).toNat = x.toNat * x.toNat * x.toNat + c.toNat := by
  rw [BitVec.toNat_add, BitVec.toNat_mul, BitVec.toNat_mul, Nat.mod_mul_mod, Nat.mod_add_mod]
  exact Nat.mod_eq_of_lt h

/-- The cubic and its shift, on words. -/
theorem cube_add_shiftRight_on_words {x c : BitVec 32} (s : Nat)
    (h : x.toNat * x.toNat * x.toNat + c.toNat < 2 ^ 32) :
    ((x * x * x + c) >>> s).toNat = (x.toNat * x.toNat * x.toNat + c.toNat) / 2 ^ s := by
  rw [BitVec.toNat_ushiftRight, cube_add_on_words h, Nat.shiftRight_eq_div_pow]

/-- Settles O11: the widths bound every intermediate, so each word is the exact number. -/
theorem thirtyTwoBitDatapathIsExact : Obligations.ThirtyTwoBitDatapathIsExact := by
  refine ⟨fun p v => ⟨scaled_lt p v, rescale_on_words p v⟩, fun x hx => ?eight, fun x hx => ?ten⟩
  case eight =>
    have hwidth : x.toNat * x.toNat * x.toNat + 130305 < 2 ^ 24 := cube_add_lt hx (by decide)
    exact ⟨hwidth, (cube_add_shiftRight_on_words 16 (hwidth.trans (by decide))).trans (corr8_of_le hx).symm⟩
  case ten =>
    have hwidth : x.toNat * x.toNat * x.toNat + 2094081 < 2 ^ 30 := cube_add_lt hx (by decide)
    exact ⟨hwidth, (cube_add_shiftRight_on_words 20 (hwidth.trans (by decide))).trans (corr10_of_le hx).symm⟩

end Sys2Proof.Machine
end

section
/-! How many values a non-decreasing function of the naturals takes: where it climbs by at most 1 it takes every value
between its ends, and where it climbs at all it takes a new value at each argument. -/

namespace Sys2Proof.Machine

open Finset

section
variable {f : Nat → Nat} (hf : Monotone f)
include hf

theorem image_range_of_steps_le_one (n : Nat) (hstep : ∀ x, x < n → f (x + 1) ≤ f x + 1) :
    (range (n + 1)).image f = Icc (f 0) (f n) := by
  induction n with
  | zero => simp
  | succ n ih =>
    have hle : f n ≤ f (n + 1) := hf n.le_succ
    have hnext : f (n + 1) ≤ f n + 1 := hstep n n.lt_succ_self
    have hzero : f 0 ≤ f n := hf n.zero_le
    rw [range_add_one, image_insert, ih fun x hx => hstep x (by omega)]
    ext y
    simp only [mem_insert, mem_Icc]
    omega

theorem card_image_range_of_strict (k j : Nat) (hstrict : ∀ x, k ≤ x → x < k + j → f x < f (x + 1)) :
    ((range (k + j + 1)).image f).card = ((range (k + 1)).image f).card + j := by
  induction j with
  | zero => rfl
  | succ j ih =>
    have hnew : f (k + j + 1) ∉ (range (k + j + 1)).image f := by
      simp only [mem_image, mem_range, not_exists, not_and]
      intro x hx
      exact ((hf (Nat.le_of_lt_succ hx)).trans_lt (hstrict (k + j) (by omega) (by omega))).ne
    rw [← Nat.add_assoc k j 1, range_add_one, image_insert, card_insert_of_notMem hnew,
      ih fun x hk hx => hstrict x hk (by omega), Nat.add_assoc]

/-- Both at once: small steps up to k, strict ones from k to n. -/
theorem card_image_range {k n : Nat} (hkn : k ≤ n) (hstep : ∀ x, x < k → f (x + 1) ≤ f x + 1)
    (hstrict : ∀ x, k ≤ x → x < n → f x < f (x + 1)) :
    ((range (n + 1)).image f).card = f k + 1 - f 0 + (n - k) := by
  obtain ⟨j, rfl⟩ := Nat.exists_eq_add_of_le hkn
  rw [card_image_range_of_strict hf k j hstrict, image_range_of_steps_le_one hf k hstep, Nat.card_Icc,
    Nat.add_sub_cancel_left]

end

end Sys2Proof.Machine
end

section
/-! The properties of the output function (40_corrector.md R106), from the differences of the cubic: its numerator grows
by 3 x (x + 1) + 1 from x to x + 1, so its steps are at most 1 up to a level and at least 1 from there on. -/

namespace Sys2Proof.Machine

open Sys2Proof

theorem div_le_div_add_of_le {a a' d : Nat} (n : Nat) (hd : 0 < d) (h : a' ≤ a + n * d) : a' / d ≤ a / d + n :=
  (Nat.div_le_div_right h).trans_eq (Nat.add_mul_div_right a n hd)

theorem div_lt_div_of_add_le {a a' d : Nat} (hd : 0 < d) (h : a + d ≤ a') : a / d < a' / d :=
  Nat.lt_of_succ_le ((Nat.add_div_right a hd).symm.trans_le (Nat.div_le_div_right h))

theorem cube_succ (x : Nat) : (x + 1) * (x + 1) * (x + 1) = x * x * x + (3 * (x * (x + 1)) + 1) := by ring

theorem cubicCorr_succ_le {m x : Nat} (n : Nat) (h : 3 * (x * (x + 1)) + 1 ≤ n * (m + 1) ^ 2) :
    cubicCorr m (x + 1) ≤ cubicCorr m x + n :=
  div_le_div_add_of_le n (by positivity) (by rw [cube_succ]; omega)

theorem cubicCorr_lt_succ {m x : Nat} (h : (m + 1) ^ 2 ≤ 3 * (x * (x + 1)) + 1) :
    cubicCorr m x < cubicCorr m (x + 1) :=
  div_lt_div_of_add_le (by positivity) (by rw [cube_succ]; omega)

theorem cubicCorr_succ_le_add_three {m x : Nat} (h : x < m) : cubicCorr m (x + 1) ≤ cubicCorr m x + 3 := by
  have hprod : x * (x + 1) ≤ m * m := Nat.mul_le_mul h.le h
  exact cubicCorr_succ_le 3 (by nlinarith)

/-! The fixed points: x ^ 3 + C − x 2 ^ S = (x − m) (x ^ 2 + m x − (2 m + 1)). -/

theorem cubicCorr_of_le_one {m x : Nat} (hm : 2 ≤ m) (hx : x ≤ 1) : cubicCorr m x = 1 := by
  have hcube : x * x * x ≤ 1 := by interval_cases x <;> decide
  exact Nat.div_eq_of_lt_le (by nlinarith) (by nlinarith)

theorem cubicCorr_lt_self {m x : Nat} (hx : 2 ≤ x) (hxm : x < m) : cubicCorr m x < x := by
  refine Nat.div_lt_of_lt_mul ?_
  obtain ⟨y, rfl⟩ := Nat.exists_eq_add_of_le hx
  obtain ⟨z, rfl⟩ := Nat.exists_eq_add_of_lt hxm
  ring_nf
  nlinarith

theorem cubicCorr_eq_self_iff {m x : Nat} (hm : 2 ≤ m) (hx : x ≤ m) : cubicCorr m x = x ↔ x = 1 ∨ x = m := by
  constructor
  · intro hfix
    by_contra hne
    rcases Nat.lt_or_ge x 2 with hlow | hhigh
    · have hone := cubicCorr_of_le_one hm (Nat.le_of_lt_succ hlow)
      omega
    · have hlt := cubicCorr_lt_self hhigh (by omega : x < m)
      omega
  · rintro (rfl | rfl)
    · exact cubicCorr_of_le_one hm le_rfl
    · exact cubicCorr_self x

/-! The counts. -/

/-- The correction climbs by at most 1 up to the level j + 1 and by at least 1 from there on. -/
theorem card_image_cubicCorr {m j n : Nat} (hm : 2 ≤ m) (hjn : j + 1 ≤ n)
    (hsmall : 3 * (j * (j + 1)) + 1 ≤ (m + 1) ^ 2) (hlarge : (m + 1) ^ 2 ≤ 3 * ((j + 1) * (j + 2)) + 1) :
    ((Finset.range (n + 1)).image (cubicCorr m)).card = cubicCorr m (j + 1) + (n - (j + 1)) := by
  have hstep : ∀ x, x < j + 1 → cubicCorr m (x + 1) ≤ cubicCorr m x + 1 := fun x hx => by
    have hprod : x * (x + 1) ≤ j * (j + 1) := Nat.mul_le_mul (by omega) (by omega)
    exact cubicCorr_succ_le 1 (by omega)
  have hstrict : ∀ x, j + 1 ≤ x → x < n → cubicCorr m x < cubicCorr m (x + 1) := fun x hx _ => by
    have hprod : (j + 1) * (j + 2) ≤ x * (x + 1) := Nat.mul_le_mul hx (by omega)
    exact cubicCorr_lt_succ (by omega)
  rw [card_image_range (cubicCorr_mono m) hjn hstep hstrict, cubicCorr_of_le_one hm (Nat.zero_le 1),
    Nat.add_sub_cancel]

/-- On [0, n] corr8 takes the 51 values up to its level 148, and a new one at each level after that. -/
theorem card_image_corr8 {n : Nat} (hlow : 148 ≤ n) (hn : n ≤ 255) :
    ((Finset.range (n + 1)).image corr8).card = 51 + (n - 148) := by
  have heq : (Finset.range (n + 1)).image corr8 = (Finset.range (n + 1)).image (cubicCorr 255) :=
    Finset.image_congr fun x hx => corr8_of_le (by have := Finset.mem_range.mp hx; omega)
  rw [heq]
  exact card_image_cubicCorr (j := 147) (by decide) hlow (by decide) (by decide)

theorem card_image_corr10 : ((Finset.range 1024).image corr10).card = 630 := by
  have heq : (Finset.range 1024).image corr10 = (Finset.range 1024).image (cubicCorr 1023) :=
    Finset.image_congr fun x hx => corr10_of_le (Nat.le_of_lt_succ (Finset.mem_range.mp hx))
  rw [heq]
  exact card_image_cubicCorr (j := 590) (n := 1023) (by decide) (by decide) (by decide) (by decide)

/-- The rescale of the 8-bit build climbs by at most 1, so it reaches every level up to K. -/
theorem image_rescale {b : Build} (h : b.pwmBits = .eight) (p : OutPath) :
    ((Finset.range 1024).image fun n => rescale b p (BitVec.ofNat 10 n)) = Finset.range (pathScale p + 1) := by
  have hmono : Monotone fun n => n * pathScale p / 1023 := fun x y hxy => by
    dsimp only
    gcongr
  have hstep (x : Nat) : (x + 1) * pathScale p / 1023 ≤ x * pathScale p / 1023 + 1 :=
    div_le_div_add_of_le 1 (by decide) (by
      have hK := pathScale_le p
      rw [Nat.succ_mul]
      omega)
  calc ((Finset.range 1024).image fun n => rescale b p (BitVec.ofNat 10 n))
      = (Finset.range 1024).image fun n => n * pathScale p / 1023 :=
        Finset.image_congr fun n hn => by
          have hlt : n < 2 ^ 10 := Finset.mem_range.mp hn
          rw [rescale_of_eight h, BitVec.toNat_ofNat, Nat.mod_eq_of_lt hlt]
    _ = Finset.Icc (0 * pathScale p / 1023) (1023 * pathScale p / 1023) :=
        image_range_of_steps_le_one hmono 1023 fun x _ => hstep x
    _ = Finset.range (pathScale p + 1) := by
        rw [Nat.zero_mul, Nat.zero_div, Nat.mul_div_cancel_left _ (by decide)]
        ext y
        simp only [Finset.mem_Icc, Finset.mem_range]
        omega

theorem image_outNat {b : Build} (h : b.pwmBits = .eight) (p : OutPath) :
    ((Finset.range 1024).image fun n => outNat b p (BitVec.ofNat 10 n)) =
      (Finset.range (pathScale p + 1)).image corr8 := by
  simp only [outNat, corr_of_eight h]
  rw [← image_rescale h p, Finset.image_image]
  rfl

/-! Monotonicity, and the end of the TRACK path. -/

theorem corr_mono (b : Build) {x y : Nat} (h : x ≤ y) : corr b x ≤ corr b y := by
  rw [corr_eq_min, corr_eq_min]
  exact min_le_min_right _ (cubicCorr_mono _ h)

theorem out_mono (b : Build) (p : OutPath) {v w : Lin} (h : v.toNat ≤ w.toNat) :
    (out b p v).toNat ≤ (out b p w).toNat := by
  rw [out_toNat, out_toNat]
  exact corr_mono b (rescale_mono b p h)

theorem out_track_full {b : Build} (h : b.pwmBits = .eight) : (out b .track 1023).toNat = 175 := by
  rw [out_of_eight h]
  decide

theorem out_track_le {b : Build} (h : b.pwmBits = .eight) (v : Lin) : (out b .track v).toNat ≤ 175 :=
  (out_mono b .track (lin_le v)).trans_eq (out_track_full h)

/-- DUTY = 0 is never written. -/
theorem one_le_out_toNat (b : Build) (p : OutPath) (v : Lin) : 1 ≤ (out b p v).toNat :=
  (one_le_outNat b p v).trans_eq (out_toNat b p v).symm

theorem corr_ends (b : Build) : corr b b.pwmMax = b.pwmMax ∧ corr b 0 = 1 := by
  rw [corr_of_le le_rfl, corr_of_le (Nat.zero_le _)]
  exact ⟨cubicCorr_self _, cubicCorr_of_le_one (two_le_pwmMax b) (Nat.zero_le 1)⟩

theorem corr8_eq_self_iff {x : Nat} (h : x ≤ 255) : corr8 x = x ↔ x = 1 ∨ x = 255 := by
  rw [corr8_of_le h]
  exact cubicCorr_eq_self_iff (by decide) h

theorem corr10_eq_self_iff {x : Nat} (h : x ≤ 1023) : corr10 x = x ↔ x = 1 ∨ x = 1023 := by
  rw [corr10_of_le h]
  exact cubicCorr_eq_self_iff (by decide) h

theorem corr8_succ_sub_le {x : Nat} (h : x < 255) : corr8 (x + 1) - corr8 x ≤ 3 := by
  rw [corr8_of_le h, corr8_of_le h.le]
  exact Nat.sub_le_iff_le_add'.mpr (cubicCorr_succ_le_add_three h)

theorem corr10_succ_sub_le {x : Nat} (h : x < 1023) : corr10 (x + 1) - corr10 x ≤ 3 := by
  rw [corr10_of_le h, corr10_of_le h.le]
  exact Nat.sub_le_iff_le_add'.mpr (cubicCorr_succ_le_add_three h)

/-- Settles O12: each property of `corr8` and `corr10` is one of `cubicCorr`, and the rescale, monotone and onto
[0, K] in the 8-bit build, carries it to `out`. -/
theorem outputFunctionProperties : Obligations.OutputFunctionProperties := by
  refine ⟨fun b p v w => out_mono b p, fun b p v => ⟨one_le_out_toNat b p v, pwmVal_le (out b p v)⟩,
    fun x => corr8_eq_self_iff, fun x => corr10_eq_self_iff, corr_ends, fun x => corr8_succ_sub_le,
    fun x => corr10_succ_sub_le, card_image_corr8 (n := 255) (by decide) le_rfl, card_image_corr10,
    fun b h8 => ⟨?std, ?track, out_track_le h8, out_track_full h8⟩⟩
  case std =>
    rw [image_outNat h8]
    exact card_image_corr8 (n := 255) (by decide) le_rfl
  case track =>
    rw [image_outNat h8]
    exact card_image_corr8 (n := 225) (by decide) (by decide)

end Sys2Proof.Machine
end

section
/-! The interpolator (41_transition.md R120): where its division by T vanishes, and the start side of the exact line. -/

namespace Sys2Proof.Machine

open Sys2Proof

theorem lerp_start (s t : Lin) {T : Nat} (hT : 0 < T) : lerp s t 0 T = s := by
  apply BitVec.eq_of_toNat_eq
  rcases Nat.le_total s.toNat t.toNat with hup | hdown
  · simp [lerp_toNat_up 0 hT hup]
  · simp [lerp_toNat_down 0 hT hdown]

theorem lerp_zero_eq_ite (s t : Lin) (T : Nat) : lerp s t 0 T = if T = 0 then t else s := by
  split
  next hT => rw [hT, lerp_of_zero]
  next hT => exact lerp_start s t (Nat.pos_of_ne_zero hT)

theorem lerp_self (s : Lin) (e T : Nat) : lerp s s e T = s := by
  rcases Nat.eq_zero_or_pos T with rfl | hT
  · exact lerp_of_zero s s e
  · apply BitVec.eq_of_toNat_eq
    simp [lerp_toNat_up e hT le_rfl]

/-- From the T-th millisecond on the whole distance is gone (41_transition.md R120). -/
theorem lerp_of_le (s t : Lin) {e T : Nat} (h : T ≤ e) : lerp s t e T = t := by
  rcases Nat.eq_zero_or_pos T with rfl | hT
  · exact lerp_of_zero s t e
  · apply BitVec.eq_of_toNat_eq
    rcases Nat.le_total s.toNat t.toNat with hup | hdown
    · rw [lerp_toNat_up e hT hup, Nat.min_eq_right h, Nat.mul_div_cancel _ hT]
      omega
    · rw [lerp_toNat_down e hT hdown, Nat.min_eq_right h, Nat.mul_div_cancel _ hT]
      omega

/-! Each direction of the ramp: the level stays between the ends, and the distance gone is the integer part of the exact
distance. -/

theorem lerp_ascends {s t : Lin} (e : Nat) {T : Nat} (hT : 0 < T) (h : s.toNat ≤ t.toNat) :
    s.toNat ≤ (lerp s t e T).toNat ∧ (lerp s t e T).toNat ≤ t.toNat := by
  rw [lerp_toNat_up e hT h]
  exact ⟨Nat.le_add_right _ _, (Nat.le_sub_iff_add_le' h).mp (lerp_quotient_le _ e T)⟩

theorem lerp_descends {s t : Lin} (e : Nat) {T : Nat} (hT : 0 < T) (h : t.toNat ≤ s.toNat) :
    t.toNat ≤ (lerp s t e T).toNat ∧ (lerp s t e T).toNat ≤ s.toNat := by
  rw [lerp_toNat_down e hT h]
  exact ⟨Nat.le_sub_of_add_le ((Nat.le_sub_iff_add_le' h).mp (lerp_quotient_le _ e T)), Nat.sub_le _ _⟩

theorem lerp_gone_up {s t : Lin} (e : Nat) {T : Nat} (hT : 0 < T) (h : s.toNat ≤ t.toNat) :
    (lerp s t e T).toNat - s.toNat = (t.toNat - s.toNat) * min e T / T := by
  rw [lerp_toNat_up e hT h, Nat.add_sub_cancel_left]

theorem lerp_gone_down {s t : Lin} (e : Nat) {T : Nat} (hT : 0 < T) (h : t.toNat ≤ s.toNat) :
    s.toNat - (lerp s t e T).toNat = (s.toNat - t.toNat) * min e T / T := by
  rw [lerp_toNat_down e hT h, Nat.sub_sub_self ((lerp_quotient_le _ e T).trans (Nat.sub_le _ _))]

theorem lerp_mem_range (s t : Lin) (e T : Nat) :
    min s.toNat t.toNat ≤ (lerp s t e T).toNat ∧ (lerp s t e T).toNat ≤ max s.toNat t.toNat := by
  rcases Nat.eq_zero_or_pos T with rfl | hT
  · rw [lerp_of_zero]
    exact ⟨Nat.min_le_right _ _, Nat.le_max_right _ _⟩
  · rcases Nat.le_total s.toNat t.toNat with hup | hdown
    · rw [Nat.min_eq_left hup, Nat.max_eq_right hup]
      exact lerp_ascends e hT hup
    · rw [Nat.min_eq_right hdown, Nat.max_eq_left hdown]
      exact lerp_descends e hT hdown

theorem lerp_toNat_eq_lerpInt (s t : Lin) (e T : Nat) :
    ((lerp s t e T).toNat : Int) = lerpInt s.toNat t.toNat e T := by
  rcases Nat.eq_zero_or_pos T with rfl | hT
  · rw [lerp_of_zero, lerpInt, if_pos rfl]
  · rcases Nat.le_total s.toNat t.toNat with hup | hdown
    · rw [lerpInt_up e hT hup, lerp_toNat_up e hT hup, Nat.cast_add]
    · rw [lerpInt_down e hT hdown, ← lerp_gone_down e hT hdown, Nat.cast_sub (lerp_descends e hT hdown).2,
        sub_sub_cancel]

/-- The exact quotient is less than one above its integer part. -/
theorem div_bracket (n : Nat) {T : Nat} (hT : 0 < T) : n / T * T ≤ n ∧ n < (n / T + 1) * T :=
  ⟨Nat.div_mul_le_self n T, Nat.lt_mul_of_div_lt (Nat.lt_succ_self _) hT⟩

/-- 1023 × 65484 < 2^26 (41_transition.md R120). -/
theorem lerp_product_lt (s t : Lin) (e : Nat) {T : Nat} (hT : T ≤ 65484) :
    (((t.toNat : Int) - s.toNat) * (min e T : Nat)).natAbs < 2 ^ 26 := by
  have hd : ((t.toNat : Int) - s.toNat).natAbs ≤ 1023 := by omega
  have hm : min e T ≤ 65484 := (Nat.min_le_right e T).trans hT
  calc (((t.toNat : Int) - s.toNat) * (min e T : Nat)).natAbs
      = ((t.toNat : Int) - s.toNat).natAbs * min e T := by rw [Int.natAbs_mul, Int.natAbs_natCast]
    _ ≤ 1023 * 65484 := Nat.mul_le_mul hd hm
    _ < 2 ^ 26 := by decide

/-- Settles O13: the distance gone from s is the integer part of the exact distance, in both directions. -/
theorem lerpStaysOnTheStartSideOfTheLine : Obligations.LerpStaysOnTheStartSideOfTheLine := by
  intro s t e T
  obtain ⟨hmin, hmax⟩ := lerp_mem_range s t e T
  refine ⟨lerp_toNat_eq_lerpInt s t e T, hmin, hmax, lerp_start s t, lerp_of_le s t, fun hT hup => ?up,
    fun hT hdown => ?down, lerp_product_lt s t e⟩
  case up =>
    rw [lerp_gone_up e hT hup]
    exact div_bracket _ hT
  case down =>
    rw [lerp_gone_down e hT hdown]
    exact div_bracket _ hT

end Sys2Proof.Machine
end

section
/-! The Tick in numbers (41_transition.md R123), and a cycle during a ramp (R126): ELAPSED does not wrap, every Tick
counts, and a cycle without one is its PwmClk. -/

namespace Sys2Proof.Machine

open Sys2Proof

section
variable {b : Build} {r : Regs b}

/-- T_CHANGE + 51 fits the 16 bits of ELAPSED (00_scope.md R8). -/
theorem elapsed_add_one_toNat (he : r.elapsed.toNat ≤ b.tChange.val + 50) :
    (r.elapsed + 1).toNat = r.elapsed.toNat + 1 := by
  have hT := tChange_le b
  bv_omega

theorem tick_elapsed_of_busy (hbusy : r.busy = true) : (tick r).elapsed = r.elapsed + 1 := by
  rcases tick_cases r with ⟨hidle, _⟩ | ⟨_, _, h⟩ | ⟨_, _, h⟩
  · simp [hbusy] at hidle
  · rw [h]
  · rw [h]

/-- A Tick while BUSY = 1, below the bound of ELAPSED that the block keeps. -/
theorem tick_eq_ite (hbusy : r.busy = true) (he : r.elapsed.toNat ≤ b.tChange.val + 50) :
    tick r = if r.elapsed.toNat = b.tChange.val + 50 then { r with elapsed := r.elapsed + 1, busy := false }
      else { r with
        elapsed := r.elapsed + 1
        linCur := lerp r.linStart r.linTgt (r.elapsed.toNat + 1) b.tChange.val
        duty := out b .std (lerp r.linStart r.linTgt (r.elapsed.toNat + 1) b.tChange.val) } := by
  have hnext := elapsed_add_one_toNat he
  split
  next hlast => exact tick_of_last hbusy (by rw [hnext, hlast, Config.holdMs]; omega)
  next hmore =>
    rw [tick_of_ramping hbusy (by rw [hnext, Config.holdMs]; omega), hnext]

theorem clkPhase_eq (c : ClockCycle) (r : Regs b) :
    clkPhase c r = { r with cnt := (clkPhase c r).cnt, dutyAct := (clkPhase c r).dutyAct } := by
  ext1 <;> simp

end

/-- Settles O22: the two branches of a Tick in a ramp, told apart by ELAPSED, which has room for one more count. -/
theorem tickCountsAndSamples : Obligations.TickCountsAndSamples := by
  refine fun b r => ⟨tick_of_idle, fun hbusy he => ?_⟩
  have hT := tChange_le b
  have hcount : (tick r).elapsed.toNat = r.elapsed.toNat + 1 := by
    rw [tick_elapsed_of_busy hbusy, elapsed_add_one_toNat he]
  exact ⟨hcount, by omega, by omega, tick_eq_ite hbusy he⟩

/-- Settles O19: while BUSY = 1 a command is held, and a cycle is its PwmClk and its Tick. -/
theorem noCommandCancelsARamp : Obligations.NoCommandCancelsARamp := by
  refine fun s hbusy => ⟨exec_of_busy hbusy, accept_of_busy hbusy, fun c t hreset htick ht => ?carrier,
    fun c t hreset htick ht => ?counts⟩
  all_goals
    rw [runCycle_eq] at ht
    cases ht
    have hregs := cycleRegs_of_busy s.words hreset hbusy
  case carrier =>
    have hclk : cycleRegs c s.words s.regs = clkPhase c s.regs := by rw [hregs, tickPhase, htick]; rfl
    refine ⟨(clkPhase c s.regs).cnt, (clkPhase c s.regs).dutyAct, (cycleState c s).readResult, ?_⟩
    rw [← clkPhase_eq, ← hclk]
    simp [cycleState, hbusy, cycleWords_of_busy]
  case counts =>
    have hticked : cycleRegs c s.words s.regs = tick (clkPhase c s.regs) := by rw [hregs, tickPhase, htick]; rfl
    rw [cycleState_regs, hticked, tick_elapsed_of_busy (by simp [hbusy]), clkPhase_elapsed]

end Sys2Proof.Machine
end

section
/-! A ramp from its acceptance to its end (41_transition.md R121, R123 to R125). `RampAt r₀ v n r` holds of the registers
n Ticks after RAMP v was accepted in r₀: the acceptance establishes it, a Tick takes it from n to n + 1, and a PwmClk or a
held word leaves it alone. -/

namespace Sys2Proof.Machine

open Sys2Proof

/-- The registers r of the ramp to v accepted in r₀, after n ≤ T_CHANGE + 51 Ticks. The sample at T_CHANGE + 51 is the
target, so the Tick that ends the ramp without a sample needs no clause of its own. -/
structure RampAt {b : Build} (r₀ : Regs b) (v : Lin) (n : Nat) (r : Regs b) : Prop where
  busy : r.busy = decide (n ≤ b.tChange.val + 50)
  elapsed : r.elapsed.toNat = n
  linStart : r.linStart = r₀.linCur
  linTgt : r.linTgt = v
  linCur : r.linCur = lerp r₀.linCur v n b.tChange.val
  duty : r.duty = out b .std r.linCur
  err : r.err = r₀.err
  errCode : r.errCode = r₀.errCode

theorem tickCount_of_tick {c : ClockCycle} (h : c.tick = true) : tickCount [c] = 1 := by simp [tickCount, h]

theorem tickCount_of_no_tick {c : ClockCycle} (h : c.tick = false) : tickCount [c] = 0 := by simp [tickCount, h]

theorem rampAt_startRamp {b : Build} (r : Regs b) (v : Lin) : RampAt r v 0 (startRamp v r) := by
  rw [startRamp_eq]
  constructor <;> simp

namespace RampAt

variable {b : Build} {r₀ r : Regs b} {v : Lin} {n : Nat}

theorem busy_eq_true (h : RampAt r₀ v n r) (hn : n ≤ b.tChange.val + 50) : r.busy = true := by simp [h.busy, hn]

theorem linCur_eq_target (h : RampAt r₀ v n r) (hn : b.tChange.val ≤ n) : r.linCur = v := by
  rw [h.linCur, lerp_of_le _ _ hn]

/-- The registers after the last Tick, T_CHANGE + 51. -/
theorem ended (h : RampAt r₀ v (b.tChange.val + 51) r) :
    r.busy = false ∧ r.linCur = v ∧ r.duty = out b .std v := by
  have hv := h.linCur_eq_target (Nat.le_add_right _ _)
  exact ⟨by simp [h.busy], hv, by rw [h.duty, hv]⟩

theorem after_clkPhase (h : RampAt r₀ v n r) (c : ClockCycle) : RampAt r₀ v n (clkPhase c r) where
  busy := by simp [h.busy]
  elapsed := by simp [h.elapsed]
  linStart := by simp [h.linStart]
  linTgt := by simp [h.linTgt]
  linCur := by simp [h.linCur]
  duty := by simp [h.duty]
  err := by simp [h.err]
  errCode := by simp [h.errCode]

/-- A Tick during the ramp: the next sample, or at n = T_CHANGE + 50 the end. -/
theorem after_tick (h : RampAt r₀ v n r) (hn : n ≤ b.tChange.val + 50) : RampAt r₀ v (n + 1) (tick r) := by
  have hbusy := h.busy_eq_true hn
  have he : r.elapsed.toNat ≤ b.tChange.val + 50 := h.elapsed.trans_le hn
  have hcount : (r.elapsed + 1).toNat = n + 1 := by rw [elapsed_add_one_toNat he, h.elapsed]
  rw [tick_eq_ite hbusy he, h.elapsed]
  split
  next hlast =>
    have hcur : r.linCur = lerp r₀.linCur v (n + 1) b.tChange.val := by
      rw [h.linCur_eq_target (by omega), lerp_of_le _ _ (by omega)]
    exact ⟨by simp [hlast], hcount, h.linStart, h.linTgt, hcur, h.duty, h.err, h.errCode⟩
  next hmore =>
    have hbusy' : r.busy = decide (n + 1 ≤ b.tChange.val + 50) := hbusy.trans (decide_eq_true (by omega)).symm
    exact ⟨hbusy', hcount, h.linStart, h.linTgt, by rw [h.linStart, h.linTgt], rfl, h.err, h.errCode⟩

theorem after_cycle (h : RampAt r₀ v n r) (hn : n ≤ b.tChange.val + 50) {c : ClockCycle} (hreset : c.reset = false)
    (ws : List Word) : RampAt r₀ v (n + tickCount [c]) (cycleRegs c ws r) := by
  rw [cycleRegs_of_busy ws hreset (h.busy_eq_true hn), tickPhase]
  cases htick : c.tick with
  | true => simpa [tickCount_of_tick htick] using (h.after_clkPhase c).after_tick hn
  | false => simpa [tickCount_of_no_tick htick] using h.after_clkPhase c

end RampAt

theorem ticks_succ {b : Build} (n : Nat) (r : Regs b) : ticks (n + 1) r = tick (ticks n r) := by
  induction n generalizing r with
  | zero => rfl
  | succ n ih => exact ih (tick r)

theorem rampAt_ticks {b : Build} (r : Regs b) (v : Lin) {n : Nat} (hn : n ≤ b.tChange.val + 51) :
    RampAt r v n (ticks n (startRamp v r)) := by
  induction n with
  | zero => exact rampAt_startRamp r v
  | succ n ih =>
    rw [ticks_succ]
    exact (ih (by omega)).after_tick (by omega)

/-! The same through the machine's cycles. -/

/-- A cycle during a ramp takes no word. -/
theorem step_ramping {s : State} {r₀ : Regs s.build} {v : Lin} {n : Nat} {c : ClockCycle} {cs : List ClockCycle}
    (h : RampAt r₀ v n s.regs) (hn : n ≤ s.build.tChange.val + 50) (hs : s.inputs = c :: cs)
    (hreset : c.reset = false) :
    ∃ r q, step s = .next { s with regs := r, inputs := cs, readResult := q } ∧
      RampAt r₀ v (n + tickCount [c]) r := by
  refine ⟨cycleRegs c s.words s.regs, (cycleState c (s.setInputs cs)).readResult, ?_, h.after_cycle hn hreset s.words⟩
  rw [step_of_cons hs]
  simp [cycleState, State.setInputs, h.busy_eq_true hn, cycleWords_of_busy]

theorem run_succ_of_run (M : Host.Core) {s t u : M.State} {n : Nat} (h : M.run n s = .next t)
    (hstep : M.step t = .next u) : M.run (n + 1) s = .next u := by
  induction n generalizing s with
  | zero =>
    cases h
    exact run_of_next M hstep 0
  | succ n ih =>
    rw [Host.Core.run] at h ⊢
    cases hs : M.step s with
    | next s' =>
      rw [hs] at h
      exact ih h
    | fault f => simp [hs] at h
    | refused f => simp [hs] at h

/-- Cycles without a Reset, each of which starts during the ramp: the ramp goes on with their Ticks. -/
theorem run_ramping {s : State} {r₀ : Regs s.build} {v : Lin} {n : Nat} {cs rest : List ClockCycle}
    (h : RampAt r₀ v n s.regs) (hs : s.inputs = cs ++ rest) (hreset : noReset cs)
    (hn : n + tickCount cs ≤ s.build.tChange.val + 50) :
    ∃ r q, Sys2Proof.core.run cs.length s = .next { s with regs := r, inputs := rest, readResult := q } ∧
      RampAt r₀ v (n + tickCount cs) r := by
  induction cs using List.reverseRecOn generalizing rest with
  | nil =>
    refine ⟨s.regs, s.readResult, ?_, h⟩
    rw [show rest = s.inputs from hs.symm]
    rfl
  | append_singleton cs c ih =>
    have hcount : tickCount (cs ++ [c]) = tickCount cs + tickCount [c] := List.countP_append
    obtain ⟨r, q, hrun, hr⟩ := ih (rest := c :: rest) (by simpa using hs)
      (fun d hd => hreset d (List.mem_append_left _ hd)) (by omega)
    have hstill : n + tickCount cs ≤ s.build.tChange.val + 50 := by omega
    obtain ⟨r', q', hstep, hr'⟩ := step_ramping (s := { s with regs := r, inputs := c :: rest, readResult := q }) hr
      hstill rfl (hreset c (by simp))
    refine ⟨r', q', ?_, ?_⟩
    · rw [List.length_append]
      exact run_succ_of_run Sys2Proof.core hrun hstep
    · rwa [hcount, ← Nat.add_assoc]

/-- Settles O23: `RampAt` from the acceptance through the cycles, and through the one that ends the ramp. -/
theorem rampRunsItsFullLengthAndEndsAtTheTarget : Obligations.RampRunsItsFullLengthAndEndsAtTheTarget := by
  intro s r v cs rest hidle hr hs hreset hcount
  rw [exec_of_idle hidle] at hr
  cases hr
  obtain ⟨r, q, hrun, hramp⟩ := run_ramping (s := s.setRegs (startRamp v s.regs)) (rampAt_startRamp s.regs v) hs hreset
    (by simpa using hcount)
  rw [Nat.zero_add] at hramp
  refine ⟨⟨_, hrun, rfl, rfl, rfl, hramp.busy_eq_true hcount, hramp.elapsed, hramp.linStart, hramp.linTgt, hramp.err,
    hramp.errCode, hramp.linCur, hramp.duty, hramp.linCur_eq_target⟩, ?last⟩
  rintro c rest' rfl hc htick hlast
  obtain ⟨r', q', hstep, hend⟩ := step_ramping
    (s := { s with regs := r, inputs := c :: rest', readResult := q }) hramp hcount rfl hc
  have htotal : tickCount cs + tickCount [c] = s.build.tChange.val + 51 := by rw [tickCount_of_tick htick, hlast]
  rw [htotal] at hend
  obtain ⟨hbusy, hcur, hduty⟩ := hend.ended
  exact ⟨_, run_succ_of_run Sys2Proof.core hrun hstep, rfl, rfl, rfl, hbusy, hend.elapsed, hcur, hend.linTgt,
    hend.linStart, hduty, hend.err, hend.errCode⟩

end Sys2Proof.Machine
end

section
/-! RAMP as a command (41_transition.md R121), its malformed words, and the worked example (R129). -/

namespace Sys2Proof.Machine

open Sys2Proof

theorem startRamp_eq_ite {b : Build} (r : Regs b) (v : Lin) :
    startRamp v r = { r with
      linStart := r.linCur, linTgt := v, elapsed := 0, busy := true
      linCur := if b.tChange.val = 0 then v else r.linCur
      duty := out b .std (if b.tChange.val = 0 then v else r.linCur) } := by
  rw [startRamp_eq, lerp_zero_eq_ite]

theorem exec_ramp_of_idle {s : State} (hidle : s.regs.busy = false) (v : Lin) :
    exec (.ramp v) s = .next (s.setRegs (startRamp v s.regs)) := exec_of_idle hidle (.ramp v)

/-- A word with a must-be-zero bit set is recorded under code 2 and is otherwise without effect (60_exceptions.md R203). -/
theorem accept_of_reservedBitSet {s : State} {w : Word} (hidle : s.regs.busy = false) (hw : ReservedBitSet w) :
    accept w s = .next { s with regs := errorRecorded 2 s.regs } := by
  rw [accept_of_error hidle ((decode_eq_rsvBits_iff w).mpr hw), raiseCmdError_eq_errorRecorded]
  rfl

theorem decode_of_selects_ramp {w : Word} (h : w &&& 0xFC00 = 0x1000) : decode w = .ok (.ramp (valField w)) := by
  obtain ⟨v, hv⟩ := (selects_ramp_iff w).mp h
  cases decode_eq_iff.mp hv with
  | ramp => exact hv

/-- Settles O14: the registers are `startRamp_eq_ite`, the length of the ramp is `rampAt_ticks`, and the malformed words
are the ones with OP = 1 and a bit of RSV set. -/
theorem rampCapturesTheStartAndTakesTheFirstSample : Obligations.RampCapturesTheStartAndTakesTheFirstSample := by
  refine ⟨fun s v hidle => ?captures, fun s v hbusy => exec_of_busy hbusy _, fun s w hidle hlow hhigh => ?malformed,
    fun s t v hidle ht => ?length, fun s hidle _ hT hcur => ?worked, fun w => decode_of_selects_ramp, rfl⟩
  case captures =>
    rw [exec_ramp_of_idle hidle, startRamp_eq_ite]
    rfl
  case malformed =>
    have hop : w.toNat / 4096 = 1 ∧ w.toNat / 1024 % 4 ≠ 0 := by omega
    exact accept_of_reservedBitSet hidle (.inr (.inl hop))
  case length =>
    rw [exec_ramp_of_idle hidle] at ht
    cases ht
    refine ⟨fun k hk => ?_, (rampAt_ticks s.regs v le_rfl).ended.1⟩
    have hramp := rampAt_ticks s.regs v (hk.trans (Nat.le_succ _))
    refine ⟨hramp.busy_eq_true hk, fun hv => ?_⟩
    have hcur : (ticks k (startRamp v s.regs)).linCur = v := by rw [hramp.linCur, ← hv, lerp_self]
    have hduty : (ticks k (startRamp v s.regs)).duty = out s.build .std v := by rw [hramp.duty, hcur]
    exact ⟨hcur, hduty⟩
  case worked =>
    rw [exec_ramp_of_idle hidle, startRamp_eq_ite, hT, hcur]
    have hduty : out s.build .std (if 10 = 0 then 512 else 0) = 1 := out_zero s.build .std
    rw [hduty]
    rfl

/-- The levels and the duties of the worked example: the interpolation from 0 to 1023 in ten milliseconds, and its
8-bit output. -/
theorem workedSamples :
    ((List.range 11).map fun k =>
      ((lerp 0 1023 k 10).toNat, corr8 ((lerp 0 1023 k 10).toNat * pathScale .std / 1023))) =
      [(0, 1), (102, 2), (204, 3), (306, 8), (409, 17), (511, 33), (613, 55), (716, 88), (818, 129), (920, 185),
        (1023, 255)] := by decide

/-- Settles O24: `rampAt_ticks` gives each sample as `lerp` at its Tick, and `workedSamples` their values. -/
theorem workedRampFromZeroToFull : Obligations.WorkedRampFromZeroToFull := by
  intro i r hr
  have hramp {k : Nat} (hk : k ≤ 61) : RampAt (Regs.reset _) 1023 k (ticks k r) := hr ▸ rampAt_ticks _ 1023 hk
  have hend := hramp le_rfl
  refine ⟨?samples, fun k hlow hhigh => ?held, hend.ended.1, BitVec.eq_of_toNat_eq hend.elapsed⟩
  case samples =>
    rw [← workedSamples]
    refine List.map_congr_left fun k hk => ?_
    have hsample := hramp ((List.mem_range.mp hk).le.trans (by decide))
    have hcur : (ticks k r).linCur = lerp 0 1023 k 10 := hsample.linCur
    rw [hsample.duty, hcur, out_of_eight rfl]
  case held =>
    have hsample := hramp (hhigh.trans (by decide))
    have hcur : (ticks k r).linCur = 1023 := hsample.linCur_eq_target hlow
    refine ⟨hcur, ?_, hsample.busy_eq_true hhigh⟩
    rw [hsample.duty, hcur]
    exact out_eq_of_eight rfl (by decide)

end Sys2Proof.Machine
end

section
/-! The direct writes (42_direct.md): SETD and SETT are one write on two paths, and the TRACK path never rescales above
the STD path. -/

namespace Sys2Proof.Machine

open Sys2Proof

theorem exec_setd_of_idle {s : State} (hidle : s.regs.busy = false) (v : Lin) (u : Bool) :
    exec (.setd v u) s = .next (s.setRegs (direct .std v u s.regs)) := exec_of_idle hidle (.setd v u)

theorem exec_sett_of_idle {s : State} (hidle : s.regs.busy = false) (v : Lin) (u : Bool) :
    exec (.sett v u) s = .next (s.setRegs (direct .track v u s.regs)) := exec_of_idle hidle (.sett v u)

theorem decode_of_selects_setd {w : Word} (h : w &&& 0xF800 = 0x2000) :
    decode w = .ok (.setd (valField w) (uField w)) := by
  obtain ⟨v, u, hv⟩ := (selects_setd_iff w).mp h
  cases decode_eq_iff.mp hv with
  | setd => exact hv

theorem decode_of_selects_sett {w : Word} (h : w &&& 0xF800 = 0x3000) :
    decode w = .ok (.sett (valField w) (uField w)) := by
  obtain ⟨v, u, hv⟩ := (selects_sett_iff w).mp h
  cases decode_eq_iff.mp hv with
  | sett => exact hv

theorem rescale_full (b : Build) : rescale b .std 1023 = b.pwmMax := by
  obtain ⟨n, t, i⟩ := b
  cases n with
  | eight => rfl
  | ten => rfl

theorem out_full_toNat (b : Build) : (out b .std 1023).toNat = b.pwmMax := by
  rw [out_toNat, outNat, rescale_full]
  exact (corr_ends b).1

/-- Level 40 rescales to 9, the last value that the correction takes to 1. -/
theorem out_std_of_le_forty {b : Build} (h : b.pwmBits = .eight) {v : Lin} (hv : v.toNat ≤ 40) : out b .std v = 1 := by
  have hlow : v.toNat * pathScale .std / 1023 ≤ 9 := by
    rw [pathScale, Config.kStd]
    omega
  exact out_eq_of_eight h (corr8_of_le_nine hlow)

/-- K_TRACK is below K_STD in the 8-bit build, and the 10-bit build rescales neither path. -/
theorem rescale_track_le_std (b : Build) (v : Lin) : rescale b .track v ≤ rescale b .std v := by
  rcases pwmBits_eq_eight_or_ten b with h8 | h10
  · have hscale : pathScale .track ≤ pathScale .std := by decide
    rw [rescale_of_eight h8, rescale_of_eight h8]
    gcongr
  · rw [rescale_of_ten h10, rescale_of_ten h10]

theorem out_track_le_std (b : Build) (v : Lin) : (out b .track v).toNat ≤ (out b .std v).toNat := by
  rw [out_toNat, out_toNat]
  exact corr_mono b (rescale_track_le_std b v)

theorem out_eq_of_paths_of_ten {b : Build} (h : b.pwmBits = .ten) (p q : OutPath) (v : Lin) : out b p v = out b q v :=
  BitVec.eq_of_toNat_eq ((out_of_ten h p v).trans (out_of_ten h q v).symm)

theorem direct_eq_of_paths_of_ten {b : Build} (h : b.pwmBits = .ten) (p q : OutPath) (v : Lin) (u : Bool) :
    (direct p v u : Regs b → Regs b) = direct q v u := by
  funext r
  rw [direct_eq, direct_eq, out_eq_of_paths_of_ten h p q]

/-- Settles O15: the registers are `direct_eq` on the STD path, the corner cases are values of `out`, and the malformed
words are the ones with OP = 2 and the RSV bit set. -/
theorem setdWritesTheStandardPath : Obligations.SetdWritesTheStandardPath := by
  refine ⟨fun s v u hidle => ?writes, fun s w hidle hlow hhigh => ?malformed, fun s t v hidle ht => ?follows,
    fun b => ⟨out_zero b .std, out_full_toNat b⟩, fun b h8 => ⟨fun v => out_std_of_le_forty h8,
      out_eq_of_eight h8 (by decide), out_eq_of_eight h8 (by decide)⟩, fun w => decode_of_selects_setd, rfl⟩
  case writes =>
    rw [exec_setd_of_idle hidle, direct_eq]
    rfl
  case malformed =>
    have hop : w.toNat / 4096 = 2 ∧ w.toNat / 2048 % 2 = 1 := by omega
    exact accept_of_reservedBitSet hidle (.inr (.inr ⟨.inl hop.1, hop.2⟩))
  case follows =>
    rw [exec_setd_of_idle hidle, direct_eq] at ht
    cases ht
    rfl

/-- Settles O16: the registers are `direct_eq` on the TRACK path, which `rescale_track_le_std` bounds by the STD path and
which in the 10-bit build is the same write. -/
theorem settWritesTheTrackingPath : Obligations.SettWritesTheTrackingPath := by
  refine ⟨fun s v u hidle => ?writes, fun s w hidle hlow hhigh => ?malformed,
    fun b h8 => ⟨out_eq_of_eight h8 (by decide), out_eq_of_eight h8 (by decide), out_track_le_std b⟩,
    fun s v u h10 => ?sameEffect, fun w => decode_of_selects_sett, fun b => out_zero b .track, rfl⟩
  case writes =>
    rw [exec_sett_of_idle hidle, direct_eq]
    rfl
  case malformed =>
    have hop : w.toNat / 4096 = 3 ∧ w.toNat / 2048 % 2 = 1 := by omega
    exact accept_of_reservedBitSet hidle (.inr (.inr ⟨.inr hop.1, hop.2⟩))
  case sameEffect =>
    exact congrArg (whenIdle s) (direct_eq_of_paths_of_ten h10 .track .std v u)

end Sys2Proof.Machine
end

section
/-! DUTY never becomes 0 (42_direct.md R144): every event but Reset keeps DUTY or writes a value of `out`, which is never
0. -/

namespace Sys2Proof.Machine

open Sys2Proof

section
variable {b : Build} (r : Regs b)

theorem acceptRegs_duty_cases (w : Word) :
    (acceptRegs w r).duty = r.duty ∨ ∃ p v, (acceptRegs w r).duty = out b p v := by
  rcases acceptRegs_cases r w with ⟨_, h⟩ | ⟨_, i, _, h⟩ | ⟨_, e, _, h⟩
  · exact .inl (by rw [h])
  · rw [h]
    exact execRegs_duty_cases i r
  · exact .inl (by rw [h, raiseCmdError_eq])

theorem cmdRegs_duty_cases (c : ClockCycle) (busyAtStart : Bool) (ws : List Word) :
    (cmdRegs c busyAtStart ws r).duty = r.duty ∨ ∃ p v, (cmdRegs c busyAtStart ws r).duty = out b p v := by
  rcases cmdRegs_cases r c busyAtStart ws with ⟨_, h⟩ | ⟨_, _, w, _, _, h⟩
  · exact .inl (by rw [h])
  · rw [h]
    exact acceptRegs_duty_cases r w

theorem tickPhase_duty_cases (c : ClockCycle) :
    (tickPhase c r).duty = r.duty ∨ ∃ p v, (tickPhase c r).duty = out b p v := by
  unfold tickPhase
  split
  · rcases tick_cases r with ⟨_, h⟩ | ⟨_, _, h⟩ | ⟨_, _, h⟩
    · exact .inl (by rw [h])
    · exact .inl (by rw [h])
    · exact .inr ⟨.std, _, by rw [h]⟩
  · exact .inl rfl

/-- Everything a cycle without Reset can do to DUTY: its command and its Tick write values of `out`. -/
theorem cycleRegs_duty_cases {c : ClockCycle} (hreset : c.reset = false) (ws : List Word) :
    (cycleRegs c ws r).duty = r.duty ∨ ∃ p v, (cycleRegs c ws r).duty = out b p v := by
  rw [cycleRegs_of_no_reset r hreset]
  rcases cmdRegs_duty_cases (tickPhase c (clkPhase c r)) c r.busy ws with hkept | hwritten
  · rw [hkept, ← clkPhase_duty r c]
    exact tickPhase_duty_cases (clkPhase c r) c
  · exact .inr hwritten

end

theorem eq_zero_of_kept_or_out {b : Build} {d d' : PwmVal b} (h : d' = d ∨ ∃ p v, d' = out b p v) (hzero : d' = 0) :
    d = 0 := by
  rcases h with hkept | ⟨p, v, hout⟩
  · exact hkept.symm.trans hzero
  · exact absurd (hout.symm.trans hzero) (out_ne_zero b p v)

theorem duty_eq_zero_of_exec {s t : State} {i : Instr} (h : exec i s = .next t) (hzero : t.regs.duty = 0) :
    s.regs.duty = 0 := by
  cases hbusy : s.regs.busy with
  | true =>
    rw [exec_of_busy hbusy] at h
    cases h
    exact hzero
  | false =>
    rw [exec_of_idle hbusy] at h
    cases h
    exact eq_zero_of_kept_or_out (execRegs_duty_cases i s.regs) hzero

theorem direct_duty_ne_zero {b : Build} (r : Regs b) (p : OutPath) (v : Lin) (u : Bool) :
    (direct p v u r).duty ≠ 0 := by
  rw [direct_duty]
  exact out_ne_zero b p v

/-- Settles O44: a command and a cycle without Reset keep DUTY or write `out`, and a direct write always writes it. -/
theorem onlyResetLeavesDutyZero : Obligations.OnlyResetLeavesDutyZero := by
  refine ⟨fun s t i => duty_eq_zero_of_exec, fun s t v u hidle hexec => ?direct, fun s t c cs hs ht hzero => ?step,
    fun s => rfl⟩
  case direct =>
    rcases hexec with hsetd | hsett
    · rw [exec_setd_of_idle hidle] at hsetd
      cases hsetd
      exact direct_duty_ne_zero s.regs .std v u
    · rw [exec_sett_of_idle hidle] at hsett
      cases hsett
      exact direct_duty_ne_zero s.regs .track v u
  case step =>
    rw [step_of_cons hs] at ht
    cases ht
    cases hreset : c.reset with
    | true => exact .inr rfl
    | false => exact .inl (eq_zero_of_kept_or_out (cycleRegs_duty_cases s.regs hreset s.words) hzero)

end Sys2Proof.Machine
end

section
/-! NOP and CLRERR (43_control.md R160, R161). -/

namespace Sys2Proof.Machine

open Sys2Proof

/-- A presented word leaves the host in the cycle that finds BUSY = 0, and no earlier (20_memory.md R54). -/
theorem cycleWords_cmdCycle_eq_tail_iff (busyAtStart : Bool) (w : Word) (ws : List Word) :
    cycleWords cmdCycle busyAtStart (w :: ws) = ws ↔ busyAtStart = false := by
  cases busyAtStart with
  | true => simp [cycleWords_of_busy]
  | false => simp [cycleWords_of_taken (c := cmdCycle) rfl rfl]

theorem clearErrorRecord_eq_self {b : Build} {r : Regs b} (herr : r.err = false) (hcode : r.errCode = 0) :
    clearErrorRecord r = r := by
  rw [clearErrorRecord_eq, ← herr, ← hcode]

/-- Settles O17: NOP is `exec_of_idle` with the registers kept, its malformed words are the ones with OP = 0 and ZERO not
0, and a presented word is taken by `cycleWords_cmdCycle_eq_tail_iff`. -/
theorem nopChangesNothing : Obligations.NopChangesNothing := by
  refine ⟨fun s hidle => exec_of_idle hidle .nop, decode_eq_nop_iff, fun s w hidle hlow hhigh => ?malformed,
    fun s t cs ws hs hws ht => ?taken⟩
  case malformed =>
    have hop : w.toNat / 4096 = 0 ∧ w.toNat % 4096 ≠ 0 := by omega
    exact accept_of_reservedBitSet hidle (.inl ⟨.inl hop.1, hop.2⟩)
  case taken =>
    rw [step_of_cons hs] at ht
    cases ht
    have hwords : (cycleState cmdCycle (s.setInputs cs)).words = cycleWords cmdCycle s.regs.busy (0x0000 :: ws) := by
      rw [← hws]
      rfl
    rw [hwords]
    exact cycleWords_cmdCycle_eq_tail_iff s.regs.busy 0x0000 ws

/-- Settles O18: CLRERR is `exec_of_idle` with `clearErrorRecord`, which keeps a record that is already clear, and its
malformed words are the ones with OP = 4 and ZERO not 0. -/
theorem clrerrClearsTheErrorRecord : Obligations.ClrerrClearsTheErrorRecord := by
  refine ⟨fun s hidle => exec_of_idle hidle .clrerr, decode_eq_clrerr_iff, fun s w hidle hlow hhigh => ?malformed,
    fun s hidle herr hcode => ?clear, fun s hbusy => ⟨exec_of_busy hbusy .clrerr, accept_of_busy hbusy 0x4000⟩⟩
  case malformed =>
    have hop : w.toNat / 4096 = 4 ∧ w.toNat % 4096 ≠ 0 := by omega
    exact accept_of_reservedBitSet hidle (.inl ⟨.inr hop.1, hop.2⟩)
  case clear =>
    have hkept : execRegs .clrerr s.regs = s.regs := clearErrorRecord_eq_self herr hcode
    rw [exec_of_idle hidle, hkept]
    rfl

end Sys2Proof.Machine
end

section
/-! The carrier on its own (44_pwm_output.md R180, R181): a PwmClk counts modulo the period, and CNT + k ≤ PWM_MAX says
that k PwmClk events do not wrap it. -/

namespace Sys2Proof.Machine

open Sys2Proof

theorem period_of_eight {b : Build} (h : b.pwmBits = .eight) : b.period = 256 := by
  rw [Build.period, h]
  rfl

theorem period_of_ten {b : Build} (h : b.pwmBits = .ten) : b.period = 1024 := by
  rw [Build.period, h]
  rfl

theorem period_eq (b : Build) : b.period = b.pwmMax + 1 := (pwmMax_add_one b).symm

section
variable {b : Build} {r : Regs b}

theorem pwmClk_of_wrap (h : r.cnt.toNat = b.pwmMax) : pwmClk r = { r with cnt := 0, dutyAct := r.duty } := by
  rcases pwmClk_cases r with ⟨_, hclk⟩ | ⟨hne, _⟩
  · exact hclk
  · exact absurd h hne

theorem pwmClk_of_count (h : r.cnt.toNat ≠ b.pwmMax) : pwmClk r = { r with cnt := r.cnt + 1 } := by
  rcases pwmClk_cases r with ⟨heq, _⟩ | ⟨_, hclk⟩
  · exact absurd heq h
  · exact hclk

theorem pwmClk_cnt_of_count (h : r.cnt.toNat ≠ b.pwmMax) : (pwmClk r).cnt.toNat = r.cnt.toNat + 1 := by
  rw [pwmClk_of_count h, pwmVal_add_one h]

theorem pwmClk_dutyAct_of_count (h : r.cnt.toNat ≠ b.pwmMax) : (pwmClk r).dutyAct = r.dutyAct := by
  rw [pwmClk_of_count h]

variable (r)

theorem pwmClk_cnt_toNat : (pwmClk r).cnt.toNat = (r.cnt.toNat + 1) % b.period := by
  by_cases h : r.cnt.toNat = b.pwmMax
  · rw [pwmClk_of_wrap h, h, period_eq, Nat.mod_self]
    rfl
  · have hle := pwmVal_le r.cnt
    rw [pwmClk_cnt_of_count h, period_eq, Nat.mod_eq_of_lt (by omega)]

theorem clocks_succ (k : Nat) : clocks (k + 1) r = pwmClk (clocks k r) := by
  induction k generalizing r with
  | zero => rfl
  | succ k ih => exact ih (pwmClk r)

theorem clocks_cnt_toNat (k : Nat) : (clocks k r).cnt.toNat = (r.cnt.toNat + k) % b.period := by
  induction k with
  | zero => exact (Nat.mod_eq_of_lt r.cnt.isLt).symm
  | succ k ih => rw [clocks_succ, pwmClk_cnt_toNat, ih, Nat.mod_add_mod, Nat.add_assoc]

@[simp] theorem clocks_duty (k : Nat) : (clocks k r).duty = r.duty := by
  induction k with
  | zero => rfl
  | succ k ih => rw [clocks_succ, pwmClk_duty, ih]

variable {r}

theorem clocks_cnt_of_le {k : Nat} (h : r.cnt.toNat + k ≤ b.pwmMax) : (clocks k r).cnt.toNat = r.cnt.toNat + k := by
  rw [clocks_cnt_toNat, period_eq, Nat.mod_eq_of_lt (by omega)]

theorem clocks_dutyAct_of_le {k : Nat} (h : r.cnt.toNat + k ≤ b.pwmMax) : (clocks k r).dutyAct = r.dutyAct := by
  induction k with
  | zero => rfl
  | succ k ih =>
    have hcnt : (clocks k r).cnt.toNat ≠ b.pwmMax := by
      rw [clocks_cnt_of_le (by omega)]
      omega
    rw [clocks_succ, pwmClk_dutyAct_of_count hcnt, ih (by omega)]

/-- The PwmClk after the last count of the period. -/
theorem clocks_succ_of_wrap {k : Nat} (h : r.cnt.toNat + k = b.pwmMax) :
    clocks (k + 1) r = { clocks k r with cnt := 0, dutyAct := r.duty } := by
  rw [clocks_succ, pwmClk_of_wrap (by rw [clocks_cnt_of_le h.le, h])]
  simp only [clocks_duty]

end

/-- Settles O25: CNT has PWM_BITS bits, so every PwmClk adds 1 modulo the period, the wrap included. -/
theorem carrierPeriodAndFrequency : Obligations.CarrierPeriodAndFrequency := by
  refine fun b => ⟨fun h => ?eight, fun h => ?ten, clocks_cnt_toNat⟩
  case eight =>
    rw [Build.carrierHz, period_of_eight h]
    exact ⟨rfl, rfl⟩
  case ten =>
    rw [Build.carrierHz, period_of_ten h]
    exact ⟨rfl, rfl⟩

/-- Settles O26: the two cases of `pwmClk_cases`, and below PWM_MAX the sum does not wrap. -/
theorem pwmClkStepsOrWrapsTheCounter : Obligations.PwmClkStepsOrWrapsTheCounter :=
  fun _ _ => ⟨pwmClk_of_wrap, fun h => ⟨pwmClk_of_count h, pwmClk_cnt_of_count h⟩⟩

end Sys2Proof.Machine
end

section
/-! pwm_out over one period (44_pwm_output.md R183): both compare rules are CNT < `highLength`, and CNT is the number of
PwmClk events since the period began. -/

namespace Sys2Proof.Machine

open Sys2Proof

section
variable {b : Build}

/-- For how many PwmClk events of a period pwm_out is high; `pwmOut_eq` ties it to the compare. -/
def highLength (r : Regs b) : Nat := if b.pwmInclusive then r.dutyAct.toNat + 1 else r.dutyAct.toNat

theorem pwmOut_eq (r : Regs b) : pwmOut r = decide (r.cnt.toNat < highLength r) := by
  unfold pwmOut highLength
  cases b.pwmInclusive with
  | true => simp
  | false => rfl

theorem highLength_le_period (r : Regs b) : highLength r ≤ b.period := by
  have hle := pwmVal_le r.dutyAct
  rw [period_eq, highLength]
  split
  · omega
  · omega

theorem highLength_congr {r r' : Regs b} (h : r'.dutyAct = r.dutyAct) : highLength r' = highLength r := by
  rw [highLength, highLength, h]

/-- A level that is high for the first d of n PwmClk events and then low is high for d of them. -/
theorem highClocks_of_prefix {n d : Nat} {r : Regs b} (hd : d ≤ n)
    (h : ∀ k, k < n → pwmOut (clocks k r) = decide (k < d)) : highClocks n r = d := by
  induction n generalizing r d with
  | zero => exact (Nat.le_zero.mp hd).symm
  | succ n ih =>
    have hnow : pwmOut r = decide (0 < d) := h 0 (Nat.succ_pos n)
    have hrest : highClocks n (pwmClk r) = d - 1 := by
      refine ih (by omega) fun k hk => ?_
      have hnext : pwmOut (clocks k (pwmClk r)) = decide (k + 1 < d) := h (k + 1) (by omega)
      rw [hnext]
      exact decide_eq_decide.mpr (by omega)
    rw [highClocks, hnow, hrest]
    cases d with
    | zero => rfl
    | succ d => simp [Nat.add_comm]

variable {r : Regs b}

theorem pwmOut_clocks_of_lt (hcnt : r.cnt = 0) {k : Nat} (hk : k < b.period) :
    pwmOut (clocks k r) = decide (k < highLength r) := by
  have hle : r.cnt.toNat + k ≤ b.pwmMax := by
    rw [period_eq] at hk
    simp [hcnt]
    omega
  rw [pwmOut_eq, clocks_cnt_of_le hle, highLength_congr (clocks_dutyAct_of_le hle)]
  simp [hcnt]

theorem highClocks_period (hcnt : r.cnt = 0) : highClocks b.period r = highLength r :=
  highClocks_of_prefix (highLength_le_period r) fun _ => pwmOut_clocks_of_lt hcnt

theorem clocks_period (hcnt : r.cnt = 0) :
    clocks b.period r = { clocks b.pwmMax r with cnt := 0, dutyAct := r.duty } := by
  rw [period_eq]
  exact clocks_succ_of_wrap (by simp [hcnt])

end

/-- Settles O28: DUTY_ACT stands through the period, so the compare is high for its first `highLength` events. -/
theorem pwmOutIsHighForTheDutyOfThePeriod : Obligations.PwmOutIsHighForTheDutyOfThePeriod := by
  refine ⟨fun b r => ⟨rfl, fun hcnt => ?_⟩, rfl⟩
  rw [clocks_period hcnt]
  exact ⟨highClocks_period hcnt, fun k => pwmOut_clocks_of_lt hcnt, rfl, rfl⟩

end Sys2Proof.Machine
end

section
/-! The carrier in the machine's cycles (44_pwm_output.md R182, R185): only the PwmClk of a cycle touches it, and DUTY
enters DUTY_ACT at the wrap alone. -/

namespace Sys2Proof.Machine

open Sys2Proof

theorem clkPhase_of_clk {b : Build} (r : Regs b) {c : ClockCycle} (h : c.pwmClk = true) : clkPhase c r = pwmClk r := by
  rw [clkPhase, if_pos h]

theorem clkPhase_of_no_clk {b : Build} (r : Regs b) {c : ClockCycle} (h : c.pwmClk = false) : clkPhase c r = r := by
  simp [clkPhase, h]

theorem clockCount_cons (c : ClockCycle) (cs : List ClockCycle) :
    clockCount (c :: cs) = clockCount cs + if c.pwmClk then 1 else 0 := List.countP_cons

section
variable {b : Build} (r : Regs b) {c : ClockCycle}

theorem cycleRegs_cnt (hreset : c.reset = false) (ws : List Word) : (cycleRegs c ws r).cnt = (clkPhase c r).cnt := by
  simp [cycleRegs_of_no_reset r hreset]

theorem cycleRegs_dutyAct (hreset : c.reset = false) (ws : List Word) :
    (cycleRegs c ws r).dutyAct = (clkPhase c r).dutyAct := by
  simp [cycleRegs_of_no_reset r hreset]

variable {r}

/-- The first of several cycles whose PwmClk events together do not wrap CNT. -/
theorem cycleRegs_carrier_of_le {cs : List ClockCycle} (hreset : c.reset = false) (ws : List Word)
    (h : r.cnt.toNat + clockCount (c :: cs) ≤ b.pwmMax) :
    (cycleRegs c ws r).cnt.toNat + clockCount cs = r.cnt.toNat + clockCount (c :: cs) ∧
      (cycleRegs c ws r).dutyAct = r.dutyAct := by
  rw [clockCount_cons] at h ⊢
  rw [cycleRegs_cnt r hreset, cycleRegs_dutyAct r hreset]
  cases hclk : c.pwmClk with
  | false =>
    rw [clkPhase_of_no_clk r hclk]
    exact ⟨rfl, rfl⟩
  | true =>
    have hcount : r.cnt.toNat ≠ b.pwmMax := by
      simp only [hclk, if_true] at h
      omega
    rw [clkPhase_of_clk r hclk, pwmClk_cnt_of_count hcount, pwmClk_dutyAct_of_count hcount]
    exact ⟨by simp only [if_true]; omega, rfl⟩

end

/-- Cycles without a Reset whose PwmClk events do not wrap CNT. -/
theorem run_before_wrap {s : State} {cs rest : List ClockCycle} (hs : s.inputs = cs ++ rest) (hreset : noReset cs)
    (hle : s.regs.cnt.toNat + clockCount cs ≤ s.build.pwmMax) :
    ∃ r ws q, Sys2Proof.core.run cs.length s =
        .next { s with regs := r, words := ws, inputs := rest, readResult := q } ∧
      r.cnt.toNat = s.regs.cnt.toNat + clockCount cs ∧ r.dutyAct = s.regs.dutyAct := by
  induction cs generalizing s with
  | nil =>
    refine ⟨s.regs, s.words, s.readResult, ?_, rfl, rfl⟩
    rw [show rest = s.inputs from hs.symm]
    rfl
  | cons c cs ih =>
    obtain ⟨hc, hcs⟩ := List.forall_mem_cons.mp hreset
    obtain ⟨hcnt, hact⟩ := cycleRegs_carrier_of_le hc s.words hle
    obtain ⟨r, ws, q, hrun, hr, hract⟩ := ih (s := cycleState c (s.setInputs (cs ++ rest))) rfl hcs (hcnt.trans_le hle)
    exact ⟨r, ws, q, (run_succ (step_of_cons hs) cs.length).trans hrun, hr.trans hcnt, hract.trans hact⟩

/-- Settles O27: `run_before_wrap`, and the PwmClk of the wrapping cycle comes before its Tick and its command. -/
theorem dutyReachesTheWaveformOnlyAtTheWrap : Obligations.DutyReachesTheWaveformOnlyAtTheWrap := by
  intro s cs rest hs hreset hle
  obtain ⟨r, ws, q, hrun, hcnt, hact⟩ := run_before_wrap hs hreset hle
  refine ⟨_, hrun, rfl, rfl, congrArg BitVec.toNat hact, hcnt, ?_⟩
  rintro c rest' rfl hc hclk hlast
  have hwrap : clkPhase c r = { r with cnt := 0, dutyAct := r.duty } := by
    rw [clkPhase_of_clk r hclk, pwmClk_of_wrap (hcnt.trans hlast)]
  have hcnt' : (cycleRegs c ws r).cnt = 0 := by rw [cycleRegs_cnt r hc, hwrap]
  have hact' : (cycleRegs c ws r).dutyAct = r.duty := by rw [cycleRegs_dutyAct r hc, hwrap]
  have hstep := step_of_cons (s := { s with regs := r, words := ws, inputs := c :: rest', readResult := q }) rfl
  exact ⟨Nat.le_add_left _ _, by rw [period_eq]; omega, _, run_succ_of_run Sys2Proof.core hrun hstep, rfl,
    congrArg BitVec.toNat hcnt', congrArg BitVec.toNat hact'⟩

/-- Settles O29: a cycle's Tick, command and Read write neither CNT nor DUTY_ACT. -/
theorem carrierRunsWhateverElseHappens : Obligations.CarrierRunsWhateverElseHappens := by
  intro s t c hreset ht
  rw [runCycle_eq] at ht
  cases ht
  have hcnt := cycleRegs_cnt s.regs hreset s.words
  have hact := cycleRegs_dutyAct s.regs hreset s.words
  refine ⟨rfl, fun hclk => ?_, fun hclk => ?_⟩
  · rw [clkPhase_of_clk s.regs hclk] at hcnt hact
    exact ⟨congrArg BitVec.toNat hcnt, congrArg BitVec.toNat hact⟩
  · rw [clkPhase_of_no_clk s.regs hclk] at hcnt hact
    exact ⟨congrArg BitVec.toNat hcnt, congrArg BitVec.toNat hact⟩

end Sys2Proof.Machine
end

section
/-! Command errors (60_exceptions.md R201 to R203): an accepted malformed word is recorded by its code, and the step that
presents a word to an idle block is its acceptance. -/

namespace Sys2Proof.Machine

open Sys2Proof

/-- The malformed words of both classes, from the decoder's answer (60_exceptions.md R201). -/
theorem accept_of_decode_error {s : State} {w : Word} {e : CmdError} (hidle : s.regs.busy = false)
    (hw : decode w = .error e) : accept w s = .next { s with regs := errorRecorded (errorCode e) s.regs } := by
  rw [accept_of_error hidle hw, raiseCmdError_eq_errorRecorded]
  rfl

/-- An idle block takes the word of a cycle that only presents it: the cycle and the word are consumed, and the rest is
`accept`, whatever the word (20_memory.md R54). -/
theorem step_of_presented {s : State} {cs : List ClockCycle} {w : Word} {ws : List Word}
    (hs : s.inputs = cmdCycle :: cs) (hw : s.words = w :: ws) (hidle : s.regs.busy = false) :
    step s = accept w { s with inputs := cs, words := ws, readResult := none } := by
  have hregs : cycleRegs cmdCycle s.words s.regs = acceptRegs w s.regs := by
    rw [cycleRegs_of_idle s.words rfl hidle, hw]
    exact cmdRegs_of_taken s.regs rfl w ws
  have hwords : cycleWords cmdCycle s.regs.busy s.words = ws := by
    rw [hw, hidle]
    exact cycleWords_of_taken rfl rfl w ws
  rw [step_of_cons hs, accept_eq, cycleState_cmdCycle]
  simp [State.setRegs, State.setInputs, hregs, hwords]

/-- Settles O20: the words of the two codes are the decoder's two errors, and an idle step is `accept` by
`step_of_presented`. -/
theorem malformedWordOnlyRecordsItsError : Obligations.MalformedWordOnlyRecordsItsError := by
  refine ⟨fun s w hidle hop => ?illegalOp, fun s w hidle hrsv => ?rsvBits,
    fun s cs w ws e hs hw hidle he => ?consumed⟩
  case illegalOp => exact accept_of_decode_error hidle ((decode_eq_illegalOp_iff w).mpr hop)
  case rsvBits => exact accept_of_reservedBitSet hidle hrsv
  case consumed =>
    rw [step_of_presented hs hw hidle]
    exact accept_of_decode_error hidle he

end Sys2Proof.Machine
end

section
/-! A Reset and the word presented next (70_reset_and_hazards.md R230): the Reset leaves an idle block in front of the
same words, so the next cycle that presents one is its acceptance. -/

namespace Sys2Proof.Machine

open Sys2Proof

theorem runCycle_of_reset {c : ClockCycle} (hc : c.reset = true) (s : State) :
    runCycle c s = .next { State.resetOf s.build with words := s.words, inputs := s.inputs } := by
  rw [runCycle_eq, cycleState_of_reset hc]
  rfl

/-- A run of one step is that step, whatever it answers. -/
theorem run_one_of_core (M : Host.Core) (s : M.State) : M.run 1 s = M.step s := by
  rw [Host.Core.run]
  cases M.step s with
  | next t => rfl
  | fault f => rfl
  | refused r => rfl

theorem run_one (s : State) : Sys2Proof.core.run 1 s = step s := run_one_of_core Sys2Proof.core s

/-- Settles O34: a cycle with Reset is `runCycle_of_reset`; the step of the Reset leaves an idle block in front of the
same words, so the next step is `accept` by `step_of_presented`. -/
theorem presentedWordSurvivesReset : Obligations.PresentedWordSurvivesReset := by
  refine ⟨fun s c hc => runCycle_of_reset hc s, fun s c cs w ws hs hw hc => ?accepted⟩
  case accepted =>
    have hreset : step s = .next { State.resetOf s.build with words := s.words, inputs := cmdCycle :: cs } :=
      resetSetsEveryRegister.1 s c (cmdCycle :: cs) hs hc
    rw [run_succ hreset 1, run_one]
    exact step_of_presented rfl hw rfl

end Sys2Proof.Machine
end

section
/-! The round trip of the encoding (30_encoding.md §3): the numbers of `encodeNat` are the words that `Decodes` gives to
their instruction, and back. -/

namespace Sys2Proof

theorem uField_toNat (w : Word) : (uField w).toNat = w.toNat / 1024 % 2 := by
  rw [uField_eq]
  rcases Nat.mod_two_eq_zero_or_one (w.toNat / 1024) with h0 | h1
  · simp [h0]
  · simp [h1]

/-- U and VAL are disjoint from the bits above and from each other, so each is read off the sum unchanged. -/
theorem fields_of_toNat {w : Word} {k : Nat} {u : Bool} {v : Lin}
    (h : w.toNat = k * 2048 + u.toNat * 1024 + v.toNat) : valField w = v ∧ uField w = u := by
  have hv := v.isLt
  have hu := u.toNat_lt
  have hval : w.toNat % 1024 = v.toNat := by omega
  have hflag : w.toNat / 1024 % 2 = u.toNat := by omega
  exact ⟨BitVec.eq_of_toNat_eq ((valField_toNat w).trans hval), by rw [uField_eq, hflag]; simp⟩

theorem decodes_encode (i : Instr) : Decodes (encode i) (.ok i) := by
  have hnat := encode_toNat i
  cases i with
  | nop => exact .nop hnat
  | clrerr => exact .clrerr hnat
  | ramp v =>
    have hv := v.isLt
    rw [encodeNat] at hnat
    obtain ⟨hval, _⟩ := fields_of_toNat (k := 2) (u := false) hnat
    simpa only [hval] using Decodes.ramp (w := encode (.ramp v)) (by omega)
  | setd v u =>
    have hv := v.isLt
    have hu := u.toNat_lt
    rw [encodeNat] at hnat
    obtain ⟨hval, hflag⟩ := fields_of_toNat (k := 4) hnat
    simpa only [hval, hflag] using Decodes.setd (w := encode (.setd v u)) (by omega)
  | sett v u =>
    have hv := v.isLt
    have hu := u.toNat_lt
    rw [encodeNat] at hnat
    obtain ⟨hval, hflag⟩ := fields_of_toNat (k := 6) hnat
    simpa only [hval, hflag] using Decodes.sett (w := encode (.sett v u)) (by omega)

/-- The fields of a well-formed word make up its number. -/
theorem encodeNat_of_decodes {w : Word} {i : Instr} (h : Decodes w (.ok i)) : encodeNat i = w.toNat := by
  cases h with
  | nop h => exact h.symm
  | clrerr h => exact h.symm
  | ramp h =>
    rw [encodeNat, valField_toNat]
    omega
  | setd h =>
    rw [encodeNat, valField_toNat, uField_toNat]
    omega
  | sett h =>
    rw [encodeNat, valField_toNat, uField_toNat]
    omega

/-- Settles O1: `decode` answers what `Decodes` relates, and the word of i is related to i. -/
theorem decodeReadsBackEveryInstruction : Obligations.DecodeReadsBackEveryInstruction :=
  fun i => decode_eq_iff.mpr (decodes_encode i)

/-- Settles O2: words are equal when their numbers are, and the number of a well-formed word is `encodeNat`. -/
theorem wellFormedWordIsTheEncodingOfItsInstruction : Obligations.WellFormedWordIsTheEncodingOfItsInstruction :=
  fun _ i h => BitVec.eq_of_toNat_eq ((encode_toNat i).trans (encodeNat_of_decodes (decode_eq_iff.mp h)))

theorem wordWellFormed_encode (i : Instr) : wordWellFormed (encode i) = true := by
  cases i with
  | nop => exact Laws.RowMatch.nop.2
  | ramp v => exact (Laws.RowMatch.ramp v).2
  | setd v u => exact (Laws.RowMatch.setd v u).2
  | sett v u => exact (Laws.RowMatch.sett v u).2
  | clrerr => exact Laws.RowMatch.clrerr.2

end Sys2Proof
end

section
/-! The assembler (30_encoding.md §4): every line but `.word` is the word of one instruction, whose number is its row's
pattern plus its operands. -/

namespace Sys2Proof.Machine

open Sys2Proof

/-- The instruction a line stands for, pseudo-instructions replaced (30_encoding.md R78); `.word` stands for none. -/
def lineInstr : AsmLine → Option Instr
  | .nop => some .nop
  | .ramp v => some (.ramp (BitVec.ofNat 10 v))
  | .setd v u => some (.setd (BitVec.ofNat 10 v) u)
  | .sett v u => some (.sett (BitVec.ofNat 10 v) u)
  | .clrerr => some .clrerr
  | .word _ => none
  | .off => some (.ramp 0)
  | .track v => some (.sett (BitVec.ofNat 10 v) false)

theorem assemble_of_illFormed {a : AsmLine} (h : a.wellFormed = false) : assemble a = none := by simp [assemble, h]

theorem assemble_of_lineInstr {a : AsmLine} {i : Instr} (h : a.wellFormed = true) (hi : lineInstr a = some i) :
    assemble a = some (encode i) := by
  cases a with
  | word n => cases hi
  | _ =>
    cases hi
    exact if_pos h

theorem assemble_word {n : Nat} (h : n ≤ 0xFFFF) : assemble (.word n) = some (BitVec.ofNat 16 n) := by
  simp [assemble, AsmLine.wellFormed, h]

theorem wellFormed_of_assemble {a : AsmLine} {w : Word} (h : assemble a = some w) : a.wellFormed = true := by
  by_contra hill
  rw [assemble_of_illFormed (Bool.eq_false_of_not_eq_true hill)] at h
  cases h

theorem exists_lineInstr {a : AsmLine} (h : ∀ n, a ≠ .word n) : ∃ i, lineInstr a = some i := by
  cases a with
  | word n => exact absurd rfl (h n)
  | _ => exact ⟨_, rfl⟩

/-- Settles O7: the word is that of the line's instruction, which is well-formed and decodes to it. -/
theorem assembledCommandsDecode : Obligations.AssembledCommandsDecode := by
  intro a w h hcommand
  obtain ⟨i, hi⟩ := exists_lineInstr hcommand
  rw [assemble_of_lineInstr (wellFormed_of_assemble h) hi] at h
  cases h
  exact ⟨wordWellFormed_encode i, i, decodeReadsBackEveryInstruction i⟩

theorem encode_eq_ofNat (i : Instr) : encode i = BitVec.ofNat 16 (encodeNat i) := by
  rw [← encode_toNat, BitVec.ofNat_toNat, BitVec.setWidth_eq]

/-- A line in range whose instruction has the number n assembles to n. -/
theorem assemble_eq_ofNat {a : AsmLine} {i : Instr} {n : Nat} (h : a.wellFormed = true) (hi : lineInstr a = some i)
    (hn : encodeNat i = n) : assemble a = some (BitVec.ofNat 16 n) := by
  rw [assemble_of_lineInstr h hi, encode_eq_ofNat, hn]

theorem lin_ofNat_toNat {n : Nat} (h : n ≤ 1023) : (BitVec.ofNat 10 n).toNat = n :=
  Nat.mod_eq_of_lt (Nat.lt_succ_of_le h)

/-- Settles O6: a line in range is `assemble_eq_ofNat`, and one out of range is ill-formed. -/
theorem assemblerEmitsTheTabulatedWords : Obligations.AssemblerEmitsTheTabulatedWords := by
  refine fun n => ⟨rfl, rfl, rfl, fun h => ?inRange, fun h => ?tooLarge, assemble_word, fun h => ?wordTooLarge⟩
  case inRange =>
    have hv := lin_ofNat_toNat h
    have hok : decide (n ≤ 1023) = true := decide_eq_true h
    refine ⟨assemble_eq_ofNat hok rfl ?_, assemble_eq_ofNat hok rfl ?_, assemble_eq_ofNat hok rfl ?_,
      assemble_eq_ofNat hok rfl ?_, assemble_eq_ofNat hok rfl ?_, rfl⟩
    all_goals simp [encodeNat, hv]
  case tooLarge =>
    have hill : decide (n ≤ 1023) = false := decide_eq_false (Nat.not_le_of_lt h)
    exact ⟨assemble_of_illFormed hill, fun u => ⟨assemble_of_illFormed hill, assemble_of_illFormed hill⟩,
      assemble_of_illFormed hill⟩
  case wordTooLarge => exact assemble_of_illFormed (decide_eq_false (Nat.not_le_of_lt h))

end Sys2Proof.Machine
end

section
/-! The block's invariant (10_state.md §2, §3, §5): it holds after Reset, and every shared operation keeps it. The widths
give the bounds of DUTY, CNT and DUTY_ACT, so each operation owes only the clauses about the fields it writes. -/

namespace Sys2Proof.Machine

open Sys2Proof

theorem errorCode_ne_zero (e : CmdError) : errorCode e ≠ 0 := by
  cases e with
  | illegalOp => decide
  | rsvBits => decide

theorem blockInv_reset (b : Build) : BlockInv (Regs.reset b) where
  duty_le := pwmVal_le _
  cnt_le := pwmVal_le _
  dutyAct_le := pwmVal_le _
  errCode_ne_three := by simp
  err_iff := by simp
  ramping := by simp
  idle := by simp
  dark := by simp

namespace BlockInv

variable {b : Build} {r : Regs b}

theorem busy_eq_false_of_dark (h : BlockInv r) (hduty : r.duty = 0) : r.busy = false := by
  obtain ⟨_, _, _, _, hidle, _⟩ := h.dark hduty
  exact hidle

/-- The Tick that ends a ramp takes no sample: LIN_CUR is at the target since Tick T_CHANGE, and DUTY is an output of the
ramp. -/
theorem after_tick (h : BlockInv r) : BlockInv (tick r) := by
  rcases tick_cases r with ⟨_, hr⟩ | ⟨hbusy, hlast, hr⟩ | ⟨hbusy, hmore, hr⟩
  · rwa [hr]
  · obtain ⟨he, hcur, _⟩ := h.ramping hbusy
    have hnext := elapsed_add_one_toNat he
    simp only [Config.holdMs] at he hlast
    have htarget : r.linCur = r.linTgt := by rw [hcur, lerp_of_le _ _ (by omega)]
    have hcount : (r.elapsed + 1).toNat = b.tChange.val + 50 + 1 := by omega
    rw [hr]
    exact { h with
      ramping := fun hbusy' => absurd hbusy' Bool.false_ne_true
      idle := fun _ => ⟨htarget, .inr hcount⟩
      dark := fun hduty => absurd (h.busy_eq_false_of_dark hduty) (by simp [hbusy]) }
  · rw [hr]
    exact { h with
      duty_le := pwmVal_le _
      ramping := fun _ => ⟨hmore, rfl, rfl⟩
      idle := fun hidle => absurd (hbusy.symm.trans hidle) (by decide)
      dark := fun hduty => absurd hduty (out_ne_zero b .std _) }

/-- A wrap loads DUTY into DUTY_ACT, so DUTY_ACT is 0 after it where DUTY is. -/
theorem after_pwmClk (h : BlockInv r) : BlockInv (pwmClk r) := by
  rcases pwmClk_cases r with ⟨_, hr⟩ | ⟨_, hr⟩
  · rw [hr]
    refine { h with cnt_le := pwmVal_le _, dutyAct_le := h.duty_le, dark := fun hduty => ?_ }
    obtain ⟨hcur, htgt, hstart, helapsed, hidle, _⟩ := h.dark hduty
    exact ⟨hcur, htgt, hstart, helapsed, hidle, hduty⟩
  · rw [hr]
    exact { h with cnt_le := pwmVal_le _ }

theorem after_startRamp (h : BlockInv r) (v : Lin) : BlockInv (startRamp v r) := by
  rw [startRamp_eq]
  exact { h with
    duty_le := pwmVal_le _
    ramping := fun _ => ⟨Nat.zero_le _, rfl, rfl⟩
    idle := fun hidle => absurd hidle.symm Bool.false_ne_true
    dark := fun hduty => absurd hduty (out_ne_zero b .std _) }

/-- A direct write keeps LIN_CUR and LIN_TGT equal, because it writes both or neither. -/
theorem after_direct (h : BlockInv r) (hbusy : r.busy = false) (p : OutPath) (v : Lin) (u : Bool) :
    BlockInv (direct p v u r) := by
  obtain ⟨hlevel, helapsed⟩ := h.idle hbusy
  rw [direct_eq]
  exact { h with
    duty_le := pwmVal_le _
    ramping := fun hbusy' => absurd (hbusy.symm.trans hbusy') Bool.false_ne_true
    idle := fun _ => ⟨by rw [hlevel], helapsed⟩
    dark := fun hduty => absurd hduty (out_ne_zero b p v) }

theorem after_raiseCmdError (h : BlockInv r) (e : CmdError) : BlockInv (raiseCmdError e r) := by
  have hcode : (if r.err then r.errCode else errorCode e) ≠ 3 ∧ (if r.err then r.errCode else errorCode e) ≠ 0 := by
    split
    next herr => exact ⟨h.errCode_ne_three, h.err_iff.mp herr⟩
    next => exact ⟨errorCode_ne_three e, errorCode_ne_zero e⟩
  rw [raiseCmdError_eq]
  exact { h with errCode_ne_three := hcode.1, err_iff := ⟨fun _ => hcode.2, fun _ => rfl⟩ }

theorem after_clearErrorRecord (h : BlockInv r) : BlockInv (clearErrorRecord r) := by
  rw [clearErrorRecord_eq]
  exact { h with errCode_ne_three := by simp, err_iff := by simp }

/-! What is built of these operations: a command, a word, and a cycle. -/

theorem after_execRegs (h : BlockInv r) (hbusy : r.busy = false) (i : Instr) : BlockInv (execRegs i r) := by
  cases i with
  | nop => exact h
  | ramp v => exact h.after_startRamp v
  | setd v u => exact h.after_direct hbusy .std v u
  | sett v u => exact h.after_direct hbusy .track v u
  | clrerr => exact h.after_clearErrorRecord

theorem after_acceptRegs (h : BlockInv r) (w : Word) : BlockInv (acceptRegs w r) := by
  rcases acceptRegs_cases r w with ⟨_, hr⟩ | ⟨hidle, i, _, hr⟩ | ⟨_, e, _, hr⟩
  · rwa [hr]
  · rw [hr]
    exact h.after_execRegs hidle i
  · rw [hr]
    exact h.after_raiseCmdError e

theorem after_cmdRegs (h : BlockInv r) (c : ClockCycle) (busyAtStart : Bool) (ws : List Word) :
    BlockInv (cmdRegs c busyAtStart ws r) := by
  rcases cmdRegs_cases r c busyAtStart ws with ⟨_, hr⟩ | ⟨_, _, w, _, _, hr⟩
  · rwa [hr]
  · rw [hr]
    exact h.after_acceptRegs w

theorem after_clkPhase (h : BlockInv r) (c : ClockCycle) : BlockInv (clkPhase c r) := by
  unfold clkPhase
  split
  · exact h.after_pwmClk
  · exact h

theorem after_tickPhase (h : BlockInv r) (c : ClockCycle) : BlockInv (tickPhase c r) := by
  unfold tickPhase
  split
  · exact h.after_tick
  · exact h

theorem after_cycleRegs (h : BlockInv r) (c : ClockCycle) (ws : List Word) : BlockInv (cycleRegs c ws r) := by
  cases hreset : c.reset with
  | true =>
    rw [cycleRegs_of_reset r hreset]
    exact blockInv_reset b
  | false =>
    rw [cycleRegs_of_no_reset r hreset]
    exact ((h.after_clkPhase c).after_tickPhase c).after_cmdRegs c r.busy ws

end BlockInv

/-- Settles O42: a step changes nothing or is one cycle, whose phases each keep the invariant. -/
theorem everyStepKeepsTheInvariant : Obligations.EveryStepKeepsTheInvariant := by
  intro s t h ht
  cases hs : s.inputs with
  | nil =>
    rw [step_of_nil hs] at ht
    cases ht
    exact h
  | cons c cs =>
    rw [step_of_cons hs] at ht
    cases ht
    exact h.after_cycleRegs c s.words

/-- Settles O43: the registers after Reset do not depend on what stands outside the block. -/
theorem resetSatisfiesTheInvariant : Obligations.ResetSatisfiesTheInvariant :=
  ⟨blockInv_reset, blockInv_reset Config.defaultBuild⟩

end Sys2Proof.Machine
end

section
/-! The step as a total function of the state (60_exceptions.md §1), and a run as its iterates. -/

namespace Sys2Proof.Machine

open Sys2Proof

/-- The state a step answers; `step_eq_stepState` ties it to `step`. -/
def stepState (s : State) : State :=
  match s.inputs with
  | [] => s
  | c :: cs => cycleState c (s.setInputs cs)

theorem stepState_of_nil {s : State} (h : s.inputs = []) : stepState s = s := by simp [stepState, h]

theorem stepState_of_cons {s : State} {c : ClockCycle} {cs : List ClockCycle} (h : s.inputs = c :: cs) :
    stepState s = cycleState c (s.setInputs cs) := by simp [stepState, h]

theorem step_eq_stepState (s : State) : step s = .next (stepState s) := by
  cases h : s.inputs with
  | nil => rw [step_of_nil h, stepState_of_nil h]
  | cons c cs => rw [step_of_cons h, stepState_of_cons h]

/-- Settles O41: a cycle is run whatever it holds, and with none left the state stays. -/
theorem everyStepHasANextState : Obligations.EveryStepHasANextState := fun s => ⟨stepState s, step_eq_stepState s⟩

theorem run_eq_iterate (n : Nat) (s : State) : Sys2Proof.core.run n s = .next (stepState^[n] s) := by
  induction n generalizing s with
  | zero => rfl
  | succ n ih => rw [run_succ (step_eq_stepState s), ih, Function.iterate_succ_apply]

end Sys2Proof.Machine
end

section
/-! The carrier's registers influence nothing else (44_pwm_output.md, opening paragraph): what a cycle leaves in the other
registers is a function of the registers with CNT and DUTY_ACT forgotten. -/

namespace Sys2Proof.Machine

open Sys2Proof

section
variable {b : Build}

/-- The registers of `forgetCarrier`. -/
def withoutCarrier (r : Regs b) : Regs b := (r.setCnt 0).setDutyAct 0

variable (r : Regs b)

@[simp] theorem withoutCarrier_busy : (withoutCarrier r).busy = r.busy := rfl

@[simp] theorem withoutCarrier_idem : withoutCarrier (withoutCarrier r) = withoutCarrier r := rfl

theorem withoutCarrier_pwmClk : withoutCarrier (pwmClk r) = withoutCarrier r := by
  rcases pwmClk_cases r with ⟨_, h⟩ | ⟨_, h⟩
  · rw [h]
    rfl
  · rw [h]
    rfl

theorem withoutCarrier_clkPhase (c : ClockCycle) : withoutCarrier (clkPhase c r) = withoutCarrier r := by
  unfold clkPhase
  split
  · exact withoutCarrier_pwmClk r
  · rfl

theorem withoutCarrier_tick : withoutCarrier (tick r) = tick (withoutCarrier r) := by
  rcases tick_cases r with ⟨hidle, h⟩ | ⟨hbusy, hlast, h⟩ | ⟨hbusy, hmore, h⟩
  · rw [h, tick_of_idle (r := withoutCarrier r) hidle]
  · rw [h, tick_of_last (r := withoutCarrier r) hbusy hlast]
    rfl
  · rw [h, tick_of_ramping (r := withoutCarrier r) hbusy hmore]
    rfl

theorem withoutCarrier_tickPhase (c : ClockCycle) :
    withoutCarrier (tickPhase c r) = tickPhase c (withoutCarrier r) := by
  unfold tickPhase
  split
  · exact withoutCarrier_tick r
  · rfl

theorem withoutCarrier_execRegs (i : Instr) : withoutCarrier (execRegs i r) = execRegs i (withoutCarrier r) := by
  cases i with
  | nop => rfl
  | ramp v => rfl
  | setd v u =>
    simp only [execRegs, direct_eq]
    rfl
  | sett v u =>
    simp only [execRegs, direct_eq]
    rfl
  | clrerr => rfl

theorem withoutCarrier_acceptRegs (w : Word) :
    withoutCarrier (acceptRegs w r) = acceptRegs w (withoutCarrier r) := by
  rcases acceptRegs_cases r w with ⟨hbusy, h⟩ | ⟨hidle, i, hi, h⟩ | ⟨hidle, e, he, h⟩
  · rw [h, acceptRegs_of_busy (withoutCarrier r) w hbusy]
  · rw [h, acceptRegs_of_ok (r := withoutCarrier r) hidle hi, withoutCarrier_execRegs]
  · rw [h, acceptRegs_of_error (r := withoutCarrier r) hidle he, raiseCmdError_eq, raiseCmdError_eq]
    rfl

theorem withoutCarrier_cmdRegs (c : ClockCycle) (busyAtStart : Bool) (ws : List Word) :
    withoutCarrier (cmdRegs c busyAtStart ws r) = cmdRegs c busyAtStart ws (withoutCarrier r) := by
  rcases cmdRegs_cases r c busyAtStart ws with ⟨hnone, h⟩ | ⟨hcmd, rfl, w, ws', rfl, h⟩
  · rw [h, cmdRegs_of_not_taken _ hnone]
  · rw [h, cmdRegs_of_taken _ hcmd, withoutCarrier_acceptRegs]

/-- The PwmClk of a cycle is lost with the carrier, and its other events read only the other registers. -/
theorem withoutCarrier_cycleRegs (c : ClockCycle) (ws : List Word) :
    withoutCarrier (cycleRegs c ws r) = withoutCarrier (cycleRegs c ws (withoutCarrier r)) := by
  cases hreset : c.reset with
  | true => rw [cycleRegs_of_reset r hreset, cycleRegs_of_reset _ hreset]
  | false =>
    simp only [cycleRegs_of_no_reset _ hreset, withoutCarrier_cmdRegs, withoutCarrier_tickPhase,
      withoutCarrier_clkPhase, withoutCarrier_idem, withoutCarrier_busy]

/-- CNT and DUTY_ACT have no read address (20_memory.md R51). -/
theorem regRead_withoutCarrier (a : RegAddr) : regRead a (withoutCarrier r) = regRead a r := by
  unfold regRead
  split <;> rfl

end

theorem forgetCarrier_cycleState_eq (c : ClockCycle) (s : State) :
    forgetCarrier (cycleState c s) = { s with
      regs := withoutCarrier (cycleRegs c s.words s.regs)
      words := cycleWords c s.regs.busy s.words
      readResult := if c.reset then none
        else c.read.map (regRead · (withoutCarrier (cycleRegs c s.words s.regs))) } := by
  simp only [regRead_withoutCarrier]
  rfl

theorem forgetCarrier_cycleState (c : ClockCycle) (s : State) :
    forgetCarrier (cycleState c s) = forgetCarrier (cycleState c (forgetCarrier s)) := by
  rw [forgetCarrier_cycleState_eq, forgetCarrier_cycleState_eq, withoutCarrier_cycleRegs]
  rfl

theorem forgetCarrier_stepState (s : State) :
    forgetCarrier (stepState s) = forgetCarrier (stepState (forgetCarrier s)) := by
  cases h : s.inputs with
  | nil =>
    rw [stepState_of_nil h, stepState_of_nil (s := forgetCarrier s) h]
    rfl
  | cons c cs =>
    rw [stepState_of_cons h, stepState_of_cons (s := forgetCarrier s) h]
    exact forgetCarrier_cycleState c (s.setInputs cs)

theorem forgetCarrier_iterate_congr {s s' : State} (h : forgetCarrier s = forgetCarrier s') (n : Nat) :
    forgetCarrier (stepState^[n] s) = forgetCarrier (stepState^[n] s') := by
  induction n generalizing s s' with
  | zero => exact h
  | succ n ih =>
    have hstep : forgetCarrier (stepState s) = forgetCarrier (stepState s') := by
      rw [forgetCarrier_stepState, h, ← forgetCarrier_stepState]
    exact ih hstep

/-- Settles O30: a run is iterated `stepState`, which takes agreement but for the carrier to the same agreement. -/
theorem carrierDoesNotInfluenceTheOtherRegisters : Obligations.CarrierDoesNotInfluenceTheOtherRegisters :=
  fun n s s' h => ⟨_, _, run_eq_iterate n s, run_eq_iterate n s', forgetCarrier_iterate_congr h n⟩

end Sys2Proof.Machine
end

section
/-! The Read of a cycle (20_memory.md R55, R57, 43_control.md R163): it is in no phase before the last, and a cycle with
no other event leaves the registers and the words. -/

namespace Sys2Proof.Machine

open Sys2Proof

/-- The registers and words of a cycle do not depend on its Read, so only the read result differs. -/
theorem cycleState_of_read {c : ClockCycle} (hreset : c.reset = false) (s : State) (q : Option RegAddr) :
    cycleState { c with read := q } s =
      { cycleState c s with readResult := q.map (regRead · (cycleState c s).regs) } := by
  have hread : (cycleState { c with read := q } s).readResult = q.map (regRead · (cycleState c s).regs) :=
    if_neg (by simp [hreset])
  rw [← hread]
  rfl

theorem cycleState_of_read_alone (s : State) (a : RegAddr) :
    cycleState { read := some a } s = { s with readResult := some (regRead a s.regs) } := rfl

/-- Settles O32: with and without the Read the cycle is one state but for the read result, and a cycle that only reads
returns from that state the same register again. -/
theorem readSeesTheCycleAndChangesNothing : Obligations.ReadSeesTheCycleAndChangesNothing := by
  intro c a s hreset
  refine ⟨{ cycleState c s with readResult := none }, ?_, rfl, ?_, ?_⟩
  · rw [runCycle_eq, cycleState_of_read hreset]
    rfl
  · rw [runCycle_eq, cycleState_of_read hreset]
    rfl
  · rw [runCycle_eq, cycleState_of_read_alone]

end Sys2Proof.Machine
end

section
/-! Who writes LIN_CUR, LIN_TGT, LIN_START, DUTY and BUSY (10_state.md R21 to R25): the four things a cycle without Reset
can do to them. -/

namespace Sys2Proof.Machine

open Sys2Proof

/-- What the cycle c, without a Reset, does to the level registers and BUSY when the host has the words ws: r are the
registers before it and r' those after it. -/
inductive LevelStep {b : Build} (c : ClockCycle) (ws : List Word) (r r' : Regs b) : Prop where
  /-- Nothing in the cycle writes them. -/
  | kept (hcur : r'.linCur = r.linCur) (htgt : r'.linTgt = r.linTgt) (hstart : r'.linStart = r.linStart)
      (hduty : r'.duty = r.duty) (hbusy : r'.busy = r.busy)
  /-- The cycle has a Tick of a ramp. -/
  | ticked (hramping : r.busy = true) (htick : c.tick = true) (htgt : r'.linTgt = r.linTgt)
      (hstart : r'.linStart = r.linStart)
  /-- The cycle accepts a RAMP. -/
  | ramped (hcmd : c.cmdValid = true) (hidle : r.busy = false) (w : Word) (v : Lin) (hw : ws.head? = some w)
      (hi : decode w = .ok (.ramp v)) (htgt : r'.linTgt = v) (hstart : r'.linStart = r.linCur)
  /-- The cycle accepts a direct write. -/
  | written (hcmd : c.cmdValid = true) (hidle : r.busy = false) (w : Word) (v : Lin) (u : Bool)
      (hw : ws.head? = some w) (hi : decode w = .ok (.setd v u) ∨ decode w = .ok (.sett v u))
      (hcur : r'.linCur = if u then v else r.linCur) (htgt : r'.linTgt = if u then v else r.linTgt)
      (hstart : r'.linStart = r.linStart) (hbusy : r'.busy = r.busy)

section
variable {b : Build} {c : ClockCycle} {ws : List Word} {r : Regs b}

/-- Neither a PwmClk nor a write of the error record touches a level or BUSY. -/
theorem levelStep_clkPhase_record (err : Bool) (code : BitVec 2) :
    LevelStep c ws r { clkPhase c r with err := err, errCode := code } :=
  .kept (by simp) (by simp) (by simp) (by simp) (by simp)

theorem levelStep_clkPhase : LevelStep c ws r (clkPhase c r) := levelStep_clkPhase_record _ _

theorem tickPhase_clkPhase_levelStep (hramping : r.busy = true) :
    LevelStep c ws r (tickPhase c (clkPhase c r)) := by
  cases htick : c.tick with
  | true => exact .ticked hramping htick (by simp) (by simp)
  | false =>
    have hclk : tickPhase c (clkPhase c r) = clkPhase c r := by simp [tickPhase, htick]
    rw [hclk]
    exact levelStep_clkPhase

theorem execRegs_clkPhase_levelStep (hcmd : c.cmdValid = true) (hidle : r.busy = false) {w : Word} {i : Instr}
    (hw : ws.head? = some w) (hi : decode w = .ok i) : LevelStep c ws r (execRegs i (clkPhase c r)) := by
  cases i with
  | nop => exact levelStep_clkPhase
  | ramp v => exact .ramped hcmd hidle w v hw hi rfl (clkPhase_linCur r c)
  | setd v u =>
    simp only [execRegs, direct_eq]
    exact .written hcmd hidle w v u hw (.inl hi) (by simp) (by simp) (by simp) (by simp)
  | sett v u =>
    simp only [execRegs, direct_eq]
    exact .written hcmd hidle w v u hw (.inr hi) (by simp) (by simp) (by simp) (by simp)
  | clrerr => exact levelStep_clkPhase_record _ _

/-- During a ramp a cycle is its PwmClk and its Tick, and otherwise its PwmClk and the word it accepts. -/
theorem cycleRegs_levelStep (hreset : c.reset = false) : LevelStep c ws r (cycleRegs c ws r) := by
  cases hbusy : r.busy with
  | true =>
    rw [cycleRegs_of_busy ws hreset hbusy]
    exact tickPhase_clkPhase_levelStep hbusy
  | false =>
    rw [cycleRegs_of_idle ws hreset hbusy]
    rcases cmdRegs_cases (clkPhase c r) c false ws with ⟨_, h⟩ | ⟨hcmd, _, w, ws', rfl, h⟩
    · rw [h]
      exact levelStep_clkPhase
    · rw [h]
      rcases acceptRegs_cases (clkPhase c r) w with ⟨_, h⟩ | ⟨_, i, hi, h⟩ | ⟨_, e, _, h⟩
      · rw [h]
        exact levelStep_clkPhase
      · rw [h]
        exact execRegs_clkPhase_levelStep hcmd hbusy rfl hi
      · rw [h, raiseCmdError_eq]
        exact levelStep_clkPhase_record _ _

end

namespace LevelStep

variable {b : Build} {c : ClockCycle} {ws : List Word} {r r' : Regs b}

theorem of_linStart_ne_or_busy_set (h : LevelStep c ws r r')
    (hchange : r'.linStart ≠ r.linStart ∨ (r.busy = false ∧ r'.busy = true)) :
    c.cmdValid = true ∧ r.busy = false ∧ ∃ w v, ws.head? = some w ∧ decode w = .ok (.ramp v) ∧
      r'.linStart = r.linCur ∧ r'.linTgt = v := by
  cases h with
  | kept _ _ hstart _ hbusy => simp [hstart, hbusy] at hchange
  | ticked hramping _ _ hstart => simp [hstart, hramping] at hchange
  | ramped hcmd hidle w v hw hi htgt hstart => exact ⟨hcmd, hidle, w, v, hw, hi, hstart, htgt⟩
  | written _ _ _ _ _ _ _ _ _ hstart hbusy => simp [hstart, hbusy] at hchange

theorem of_linTgt_ne (h : LevelStep c ws r r') (hne : r'.linTgt ≠ r.linTgt) :
    c.cmdValid = true ∧ r.busy = false ∧ ∃ w, ws.head? = some w ∧
      (decode w = .ok (.ramp r'.linTgt) ∨ decode w = .ok (.setd r'.linTgt true) ∨
        decode w = .ok (.sett r'.linTgt true)) := by
  cases h with
  | kept _ htgt => exact absurd htgt hne
  | ticked _ _ htgt => exact absurd htgt hne
  | ramped hcmd hidle w v hw hi htgt => exact ⟨hcmd, hidle, w, hw, .inl (htgt ▸ hi)⟩
  | written hcmd hidle w v u hw hi _ htgt =>
    cases u with
    | false => exact absurd htgt hne
    | true =>
      simp only [if_true] at htgt
      exact ⟨hcmd, hidle, w, hw, .inr (htgt ▸ hi)⟩

theorem of_linCur_ne_or_duty_ne (h : LevelStep c ws r r')
    (hchange : r'.linCur ≠ r.linCur ∨ r'.duty.toNat ≠ r.duty.toNat) :
    (r.busy = true ∧ c.tick = true) ∨
    (c.cmdValid = true ∧ r.busy = false ∧ ∃ w i, ws.head? = some w ∧ decode w = .ok i ∧
      ((∃ v, i = .ramp v) ∨ ((∃ v u, i = .setd v u ∨ i = .sett v u) ∧
        (r'.linCur ≠ r.linCur → i = .setd r'.linCur true ∨ i = .sett r'.linCur true)))) := by
  cases h with
  | kept hcur _ _ hduty => simp [hcur, hduty] at hchange
  | ticked hramping htick => exact .inl ⟨hramping, htick⟩
  | ramped hcmd hidle w v hw hi => exact .inr ⟨hcmd, hidle, w, _, hw, hi, .inl ⟨v, rfl⟩⟩
  | written hcmd hidle w v u hw hi hcur =>
    have hflag : r'.linCur ≠ r.linCur → u = true ∧ r'.linCur = v := by
      intro hne
      cases u with
      | false => exact absurd hcur hne
      | true => exact ⟨rfl, hcur⟩
    refine .inr ⟨hcmd, hidle, w, ?_⟩
    rcases hi with hi | hi
    · refine ⟨_, hw, hi, .inr ⟨⟨v, u, .inl rfl⟩, fun hne => .inl ?_⟩⟩
      obtain ⟨rfl, rfl⟩ := hflag hne
      rfl
    · refine ⟨_, hw, hi, .inr ⟨⟨v, u, .inr rfl⟩, fun hne => .inr ?_⟩⟩
      obtain ⟨rfl, rfl⟩ := hflag hne
      rfl

theorem of_busy_cleared (h : LevelStep c ws r r') (hr : r.busy = true) (hr' : r'.busy = false) : c.tick = true := by
  cases h with
  | kept _ _ _ _ hbusy => simp [hbusy, hr] at hr'
  | ticked _ htick => exact htick
  | ramped _ hidle => simp [hr] at hidle
  | written _ hidle => simp [hr] at hidle

end LevelStep

/-- Settles O45: each clause is one property of `LevelStep`, which every cycle without Reset satisfies. -/
theorem registersHaveOnlyTheirWriters : Obligations.RegistersHaveOnlyTheirWriters := by
  intro s t c hreset ht
  rw [runCycle_eq] at ht
  cases ht
  have h : LevelStep c s.words s.regs (cycleRegs c s.words s.regs) := cycleRegs_levelStep hreset
  exact ⟨h.of_linStart_ne_or_busy_set, h.of_linTgt_ne, h.of_linCur_ne_or_duty_ne, h.of_busy_cleared⟩

end Sys2Proof.Machine
end

section
/-! The state after power-up (70_reset_and_hazards.md R231), and the step that runs a decoded word (30_encoding.md §3). -/

namespace Sys2Proof.Machine

open Sys2Proof

/-- Every address below CONFIG reads a register, and a register's reset value is 0. -/
theorem regRead_reset (b : Build) {a : RegAddr} (ha : a.toNat ≤ 5) : regRead a (Regs.reset b) = 0 := by
  have hread : a = 0 ∨ a = 1 ∨ a = 2 ∨ a = 3 ∨ a = 4 ∨ a = 5 := by bv_omega
  rcases hread with rfl | rfl | rfl | rfl | rfl | rfl
  · exact BitVec.eq_of_toNat_eq (statusWord_toNat (Regs.reset b))
  · rfl
  · rfl
  · rfl
  · exact BitVec.eq_of_toNat_eq (pwmVal_setWidth_toNat (0 : PwmVal b))
  · rfl

/-- With the exclusive compare, DUTY_ACT = 0 is never above CNT. -/
theorem pwmOut_clocks_reset {b : Build} (hexclusive : b.pwmInclusive = false) {k : Nat} (hk : k < b.period) :
    pwmOut (clocks k (Regs.reset b)) = false := by
  rw [pwmOut_clocks_of_lt rfl hk]
  simp [highLength, hexclusive]

/-- Settles O35: the default build's reset registers are 0, and a period of its 8-bit carrier has 256 PwmClk events. -/
theorem powerUpState : Obligations.PowerUpState :=
  ⟨fun _ => regRead_reset Config.defaultBuild, rfl, rfl, rfl, rfl, rfl,
    fun _ hk => pwmOut_clocks_reset rfl ((period_of_eight (b := Config.defaultBuild) rfl).symm ▸ hk), rfl, rfl, rfl⟩

/-- Settles O38: an idle block accepts the presented word by `step_of_presented`, and `withFetchWord` presents all 16
bits of its number. -/
theorem stepRunsTheDecodedInstruction : Obligations.StepRunsTheDecodedInstruction := by
  refine ⟨fun s cs w ws i hs hw hidle hi => ?presented, fun s w i hidle hi => ?placed⟩
  case presented =>
    rw [step_of_presented hs hw hidle]
    exact accept_of_ok hidle hi
  case placed =>
    have hword : BitVec.ofNat 16 (w.toNat % 2 ^ 16) = w := by
      rw [Nat.mod_eq_of_lt w.isLt, BitVec.ofNat_toNat, BitVec.setWidth_eq]
    have hwords : (s.withFetchWord 16 w.toNat).words = w :: s.words := congrArg (· :: s.words) hword
    rw [step_of_presented (s := s.withFetchWord 16 w.toNat) rfl hwords hidle]
    exact accept_of_ok hidle hi

end Sys2Proof.Machine
end
